-- ==== Sys2Proof/Word.lean ====
section
/-! DEFINITION. The words of the FZ192: bytes on both wires and the floor clock. -/

namespace Sys2Proof

/-- A byte on the supervisory link or the cell bus. -/
abbrev Byte := BitVec 8

/-- The floor clock: a 32-bit count of seconds, wrapping modulo 2^32 (00_scope.md, section 0.4). -/
abbrev Clock := BitVec 32

end Sys2Proof
end

