-- ==== Sys2Proof/Syntax.lean ====
section
/-! DEFINITION. The commands of the FZ192: one constructor per row of spec/opcode_table.json. -/

namespace Sys2Proof

/-- Why a received frame is discarded (R166, R167). -/
inductive DiscardCause where
  | badLen
  | badCheck
  | framingError
  | replyKind
  deriving DecidableEq, Repr

/-- A command: one whole event of the part. A request command is the arrival of a good frame of its kind, taken in the
event of its CHECK byte (R167), with the frame's NUMBER and BODY. -/
inductive Instr where
  | coldRestart
  | identify (number : Byte) (body : List Byte)
  | setupFloor (number : Byte) (body : List Byte)
  | setRoles (number : Byte) (body : List Byte)
  | setAuto (number : Byte) (body : List Byte)
  | solve (number : Byte) (body : List Byte)
  | setPacing (number : Byte) (body : List Byte)
  | hasten (number : Byte) (body : List Byte)
  | setSupply (number : Byte) (body : List Byte)
  | setZone (number : Byte) (body : List Byte)
  | readZone (number : Byte) (body : List Byte)
  | listZones (number : Byte) (body : List Byte)
  | readBay (number : Byte) (body : List Byte)
  | readEdges (number : Byte) (body : List Byte)
  | readChanges (number : Byte) (body : List Byte)
  | overrideEdges (number : Byte) (body : List Byte)
  | pinKeypad (number : Byte) (body : List Byte)
  | unpinKeypad (number : Byte) (body : List Byte)
  | passThrough (number : Byte) (body : List Byte)
  | setReports (number : Byte) (body : List Byte)
  | restart (number : Byte) (body : List Byte)
  | unknownKind (kind number : Byte) (body : List Byte)
  | frameDiscard (cause : DiscardCause)
  | frameGap
  | frameSent
  | receptionEnd
  | idleHoldEnd
  | quietTimerExpiry
  | solveCompletion
  | stepTimerExpiry
  | deadlineExpiry
  | vacancyTimerExpiry (tag : Nat)
  | fadeTick
  | allocationIntervalExpiry
  | floorClockTick
  | frameByteReceived (data : Byte) (stopLow : Bool)
  | cbRequestSent
  | cbReplyCharacter (data : Byte) (mark stopLow : Bool)
  deriving DecidableEq, Repr

end Sys2Proof
end

