-- ==== Sys2Proof/Config.lean ====
section
/-! DEFINITION. The values the spec leaves open: constants without a body, so nothing can be proved of them. -/

namespace Sys2Proof

/-- FREE VALUE (log entry 6). READ ZONE shows a running vacancy timer's remaining time in whole seconds (R103, R187),
and the spec states neither the rounding nor, in the model's terms, the part of a second counted so far.
The argument is the number of free values drawn before. -/
opaque Config.secondSlack : Nat → Fin 3

/-- FREE VALUE (log entry 7). Whether the fraction of a second that the floor clock has not counted lets a deadline
moved into the present second be reached already (R113, R123). The argument is the number of free values drawn before. -/
opaque Config.fractionReached : Nat → Bool

end Sys2Proof
end

