-- ==== Sys2Proof/Machine/State.lean ====
section
/-! DEFINITION. The state of the FZ192, block by block, as plain data, and the state after a cold restart. -/

namespace Sys2Proof.Machine

/-- Reasons a step could stop with a fault. The spec names no condition that stops the part, so there is none (log entry 24). -/
inductive Fault where
  deriving DecidableEq, Repr

/-- Reasons a step could be refused. -/
inductive Refusal where
  /-- Raised by exec alone, for a command that has no meaning yet. Safe: the model stops where the part goes on. -/
  | notModelled (mnemonic : String)
  deriving DecidableEq, Repr

/-! ### The supervisory link unit -/

/-- A frame without SYNC, LEN and CHECK, which follow from it (R165). -/
structure Frame where
  kind : Byte
  number : Byte
  body : List Byte
  deriving DecidableEq, Repr

/-- The frame assembler (R166): hunting, or collecting with the bytes received since SYNC, LEN first. -/
inductive Assembler where
  | hunting
  | collecting (bytes : List Byte)
  deriving DecidableEq, Repr

/-- The request in flight (R168). -/
structure InFlight where
  kind : Byte
  number : Byte
  deriving DecidableEq, Repr

inductive RestartOption where
  | warm
  | cold
  deriving DecidableEq, Repr

/-- What the transmitter is sending (R171). -/
inductive TxSource where
  | reply
  | overlap
  | report
  deriving DecidableEq, Repr

inductive Transmitter where
  | idle
  | sending (source : TxSource) (frame : Frame)
  deriving DecidableEq, Repr

inductive FailureCause where
  | noReply
  | short
  | framing
  | check
  deriving DecidableEq, Repr

inductive Occupancy where
  | vacant
  | occupied
  deriving DecidableEq, Repr

/-- Why a cutover ended (R125). -/
inductive EndCause where
  | paced
  | deadline
  | hasten
  | switch
  deriving DecidableEq, Repr

/-- The solve result record (R83). -/
structure SolveResult where
  time : Clock
  found : Nat
  floorComponents : Nat
  continued : Nat
  bornAdmitted : Nat
  overflowBays : Nat
  retired : Nat
  toMove : Nat
  deriving DecidableEq, Repr

/-- The eleven reports with their code-specific fields (R174). -/
inductive Report where
  | surveyDone
  | solveDone (result : SolveResult)
  | solveDiscarded
  | overflow (bays : Nat)
  | cutoverDone (listed moved : Nat) (cause : EndCause) (elapsed : Clock)
  | nodeSilent (bay : Nat) (cause : FailureCause)
  | nodeBack (bay : Nat)
  | nodeRestarted (bay : Nat)
  | occupancy (tag : Nat) (occupancy : Occupancy)
  | heatCall (tag : Nat) (call : Bool) (tz : Option Nat)
  | pinDropped (bay tag : Nat)
  deriving DecidableEq, Repr

/-- A record of the report queue (R172). Its lost marker is decided when its transmission begins (R173). -/
structure Record where
  report : Report
  stamp : Clock
  deriving DecidableEq, Repr

structure Slu where
  assembler : Assembler
  inFlight : Option InFlight
  /-- The restart a taken RESTART will make when its reply has been sent (R170). -/
  restartOwed : Option RestartOption
  replySlot : Option Frame
  overlapSlot : Option Frame
  /-- Of two waiting replies, the OVERLAP reply became ready first (R171). The model's own (log entry 25). -/
  overlapFirst : Bool
  tx : Transmitter
  queue : List Record
  /-- The eleven enables in code order (R172, R195). -/
  mask : List Bool
  lost : Bool
  deriving DecidableEq, Repr

/-! ### The cell bus master -/

/-- A level byte and a damper byte, as a DRIVE carries them (R19). -/
structure Pair where
  level : Byte
  damper : Byte
  deriving DecidableEq, Repr

/-- A received cell-bus character (R20). -/
structure RxChar where
  data : Byte
  mark : Bool
  stopLow : Bool
  deriving DecidableEq, Repr

/-- A transaction on the cell bus (R19, R38). -/
inductive Transaction where
  | poll (bay : Nat)
  | drive (bay : Nat) (pair : Pair)
  | pass (bay : Nat) (body : List Byte)
  deriving DecidableEq, Repr

/-- The cell bus: free, in an idle hold (R29), sending a request (CB_DE high) or receiving its reply (R20).
`void` marks a transaction or hold caught by a setup or a warm restart: its outcome is applied to no record (R10, R40). -/
inductive Bus where
  | quiet
  | hold (void : Bool)
  | sending (t : Transaction) (void : Bool)
  | receiving (t : Transaction) (void : Bool) (chars : List RxChar)
  deriving DecidableEq, Repr

structure PassRequest where
  bay : Nat
  body : List Byte
  deriving DecidableEq, Repr

structure Cbm where
  pollCursor : Nat
  roundNumber : Nat
  /-- Ascending, without duplicates (R31). -/
  drivePending : List Nat
  driveCursor : Nat
  driveRun : Nat
  passSlot : Option PassRequest
  bus : Bus
  deriving DecidableEq, Repr

/-! ### Timers -/

/-- A timer. `running since span` was started in the floor-clock second `since` and measures `span` seconds; `held` is
zone 0's vacancy timer during the survey (R133). -/
inductive Timer where
  | stopped
  | held
  | running (since : Clock) (span : Nat)
  deriving DecidableEq, Repr

/-- The deadline timer (R113): running to `limit` seconds after the run record's start, or passed. -/
inductive Deadline where
  | stopped
  | running (limit : Nat)
  | passed
  deriving DecidableEq, Repr

/-! ### The floor model and the bay records -/

inductive FloorState where
  | unconfigured
  | survey
  | running
  deriving DecidableEq, Repr

inductive Health where
  | ok
  | silent
  deriving DecidableEq, Repr

/-- The poll inputs of a bay, present or absent together (R14). -/
structure PollInputs where
  occupied : Bool
  temp : Nat
  fault : Bool
  deriving DecidableEq, Repr

/-- The fields of a ROOMABLE bay's record (R14). -/
structure BayRec where
  health : Health
  failures : Nat
  lastFailure : Option FailureCause
  keyCounter : Option Nat
  lastSent : Option Pair
  inputs : Option PollInputs
  tag : Nat
  nextTag : Option Nat
  folded : Bool
  moves : Nat
  level : Option Nat
  target : Option Nat
  q : Nat
  deriving DecidableEq, Repr

/-- A bay: CORE bays hold nothing but their class and number (R14). Its number is its place in the collection. -/
inductive Bay where
  | core
  | roomable (r : BayRec)
  deriving DecidableEq, Repr

/-- The grid size and the per-floor constants (R1, R5). -/
structure Grid where
  cols : Nat
  rows : Nat
  v : Nat
  qmax : Nat
  sr : Nat
  deriving DecidableEq, Repr

structure FloorModel where
  state : FloorState
  grid : Option Grid
  nr : Nat
  spine : List Nat
  rl : Nat
  clock : Clock
  /-- Rounds completed in the present survey (R11). -/
  surveyRounds : Nat
  /-- The survey has ended and the floor waits for its initial solve to be accepted (R12, R13). -/
  surveyOver : Bool
  /-- Bay records 1..N in order (R14). -/
  bays : List Bay
  deriving DecidableEq, Repr

/-! ### The partition monitor -/

inductive EdgeKind where
  | sensed
  | fixed
  deriving DecidableEq, Repr

inductive Raw where
  | unknown
  | present
  | absent
  deriving DecidableEq, Repr

/-- A settled or effective state (R41). -/
inductive EdgeState where
  | unknown
  | walled
  | opened
  deriving DecidableEq, Repr

inductive Override where
  | none
  | forceWall
  | forceOpen
  deriving DecidableEq, Repr

/-- A reported value being counted toward settling (R41). -/
structure Candidate where
  present : Bool
  count : Nat
  deriving DecidableEq, Repr

structure Edge where
  kind : EdgeKind
  raw : Raw
  settled : EdgeState
  candidate : Option Candidate
  override : Override
  effective : EdgeState
  deriving DecidableEq, Repr

inductive Monitor where
  | clean
  | unsettled
  | settled
  deriving DecidableEq, Repr

structure Pmon where
  /-- Edge records 1..NE in order (R41). -/
  edges : List Edge
  baseline : Option (List EdgeState)
  /-- Ascending edge ids (R48). -/
  netChange : List Nat
  monitor : Monitor
  quiet : Timer
  owed : Bool
  auto : Bool
  qt : Nat
  changed : Bool
  deriving DecidableEq, Repr

/-! ### The rezoning sequencer -/

inductive SeqState where
  | idle
  | solving
  | cutting
  deriving DecidableEq, Repr

/-- The snapshot of a solve (R64); `initial` fixes its pacing to BLOCK. -/
structure Snapshot where
  edges : List EdgeState
  initial : Bool
  deriving DecidableEq, Repr

structure Rsq where
  seq : SeqState
  requested : Bool
  snapshot : Option Snapshot
  result : Option SolveResult
  deriving DecidableEq, Repr

/-! ### The zone table -/

inductive Life where
  | live
  | born
  | retiring
  deriving DecidableEq, Repr

/-- The seven settings of a zone (R92). -/
structure Settings where
  occupiedLevel : Nat
  standbyLevel : Nat
  vacancyDelay : Nat
  heatSetpoint : Nat
  coolSetpoint : Nat
  gain : Nat
  fadeRate : Nat
  deriving DecidableEq, Repr

/-- A zone record (R91, R93). -/
structure Zone where
  tag : Nat
  life : Life
  parent : Option Nat
  members : Nat
  incoming : Nat
  outgoing : Nat
  anchor : Option Nat
  settings : Settings
  occupancy : Occupancy
  vacancy : Timer
  manualOff : Bool
  tz : Option Nat
  heatCall : Bool
  demand : Nat
  grant : Nat
  /-- The folded-bay count, of zone 0 alone (R102). -/
  foldedBays : Nat
  deriving DecidableEq, Repr

structure Pin where
  bay : Nat
  tag : Nat
  deriving DecidableEq, Repr

structure Zt where
  /-- Slots 0..63 (R86). -/
  slots : List (Option Zone)
  nextTag : Nat
  /-- Ascending bay order (R104). -/
  pins : List Pin
  deriving DecidableEq, Repr

/-! ### The cutover engine and the airflow allocator -/

inductive Pacing where
  | block
  | step
  | vacant
  deriving DecidableEq, Repr

/-- The run record of a cutover (R112). -/
structure RunRecord where
  start : Clock
  listed : Nat
  moved : Nat
  deriving DecidableEq, Repr

structure Cut where
  /-- The cutover list, ascending (R110). -/
  list : List Nat
  mode : Pacing
  interval : Nat
  limit : Nat
  stepTimer : Timer
  deadline : Deadline
  run : Option RunRecord
  deriving DecidableEq, Repr

structure Afa where
  /-- The supply budget F (R147). -/
  supply : Option Nat
  ai : Nat
  timer : Timer
  deriving DecidableEq, Repr

/-! ### The whole part -/

/-- Everything the part holds, block by block. The lighting controller's state stands in the bay records and the zone
records (R129). -/
structure Part where
  slu : Slu
  cbm : Cbm
  fm : FloorModel
  pmon : Pmon
  rsq : Rsq
  zt : Zt
  cut : Cut
  afa : Afa
  /-- The number of free values drawn so far. The model's own (log entry 6). -/
  fresh : Nat
  deriving DecidableEq, Repr

/-- The part and the queue of commands waiting for it, first in, first out. -/
structure State where
  part : Part
  pending : List Instr
  deriving DecidableEq, Repr

/-- R175: the link after a cold restart. -/
def Slu.cold : Slu where
  assembler := .hunting
  inFlight := none
  restartOwed := none
  replySlot := none
  overlapSlot := none
  overlapFirst := false
  tx := .idle
  queue := []
  mask := List.replicate 11 true
  lost := false

/-- R39. -/
def Cbm.cold : Cbm where
  pollCursor := 0
  roundNumber := 0
  drivePending := []
  driveCursor := 0
  driveRun := 0
  passSlot := none
  bus := .quiet

/-- R16. -/
def FloorModel.cold : FloorModel where
  state := .unconfigured
  grid := none
  nr := 0
  spine := []
  rl := 24
  clock := 0
  surveyRounds := 0
  surveyOver := false
  bays := []

/-- R57. -/
def Pmon.cold : Pmon where
  edges := []
  baseline := none
  netChange := []
  monitor := .clean
  quiet := .stopped
  owed := false
  auto := true
  qt := 60
  changed := false

/-- R85. -/
def Rsq.cold : Rsq where
  seq := .idle
  requested := false
  snapshot := none
  result := none

/-- R108. -/
def Zt.cold : Zt where
  slots := List.replicate 64 none
  nextTag := 1
  pins := []

/-- R128. -/
def Cut.cold : Cut where
  list := []
  mode := .step
  interval := 2
  limit := 1800
  stepTimer := .stopped
  deadline := .stopped
  run := none

/-- R162. -/
def Afa.cold : Afa where
  supply := none
  ai := 30
  timer := .stopped

/-- The part after power-on or a low level on RSTN (00_scope.md "Restarts"). -/
def Part.cold : Part where
  slu := .cold
  cbm := .cold
  fm := .cold
  pmon := .cold
  rsq := .cold
  zt := .cold
  cut := .cold
  afa := .cold
  fresh := 0

/-- The machine right after reset: every block at its cold value, no command waiting. -/
def State.reset : State where
  part := .cold
  pending := []

end Sys2Proof.Machine
end

