-- ==== Sys2Proof/Machine/Operands.lean ====
section
/-! DEFINITION. Bytes and fields on both wires: byte order, check bytes, request bodies, reply bodies, poll replies. -/

namespace Sys2Proof.Machine

/-! ### Bytes and byte order (00_scope.md, section 0.4: most significant byte first) -/

/-- A one-byte field of a count or number. -/
def byteOf (n : Nat) : Byte := BitVec.ofNat 8 n

/-- A two-byte field, most significant byte first. -/
def bytes16 (n : Nat) : List Byte := [byteOf (n / 256), byteOf n]

/-- A four-byte field, most significant byte first. -/
def bytes32 (c : Clock) : List Byte :=
  [byteOf (c.toNat / 16777216), byteOf (c.toNat / 65536), byteOf (c.toNat / 256), byteOf c.toNat]

/-- The two-byte field whose first byte is `hi`. -/
def word16 (hi lo : Byte) : Nat := hi.toNat * 256 + lo.toNat

/-- Byte `i` (from 0) of a body as a number. -/
def fieldAt (body : List Byte) (i : Nat) : Nat := (body.getD i 0).toNat

/-- The two-byte field of a body whose first byte is byte `i` (from 0). -/
def field16At (body : List Byte) (i : Nat) : Nat := word16 (body.getD i 0) (body.getD (i + 1) 0)

def byteOfFlag (b : Bool) : Byte := if b then 1 else 0

/-- A one-byte field that may be absent: 255 when absent (R177). -/
def byteOr255 : Option Nat → Byte
  | some n => byteOf n
  | none => 255

/-- A two-byte field that may be absent: 0xFFFF when absent (R177). -/
def bytes16OrFFFF : Option Nat → List Byte
  | some n => bytes16 n
  | none => [0xFF, 0xFF]

/-- A bay number that may be absent: 0 when absent (R177). -/
def bayOrZero : Option Nat → Byte
  | some b => byteOf b
  | none => 0

/-- The sum of some bytes, exact. -/
def byteSum (bs : List Byte) : Nat := (bs.map BitVec.toNat).sum

/-- The check byte that makes a sum a multiple of 256 (R18, R165). -/
def checkByte (sum : Nat) : Byte := byteOf ((256 - sum % 256) % 256)

/-- `x` clamped to `lo..hi`. -/
def clamp (lo hi x : Nat) : Nat := max lo (min hi x)

/-! ### Frames (R165) -/

/-- LEN: the count of the KIND, NUMBER and BODY bytes. -/
def Frame.len (f : Frame) : Byte := byteOf (f.body.length + 2)

/-- The bytes from LEN to the end of BODY. -/
def Frame.content (f : Frame) : List Byte := f.len :: f.kind :: f.number :: f.body

/-- All the bytes of a frame, SYNC to CHECK. -/
def Frame.bytes (f : Frame) : List Byte := 0xC3 :: (f.content ++ [checkByte (byteSum f.content)])

/-! ### Codes (R169, R174, R177) -/

def FloorState.code : FloorState → Byte
  | .unconfigured => 0
  | .survey => 1
  | .running => 2

def SeqState.code : SeqState → Byte
  | .idle => 0
  | .solving => 1
  | .cutting => 2

def Monitor.code : Monitor → Byte
  | .clean => 0
  | .unsettled => 1
  | .settled => 2

def Life.code : Life → Byte
  | .live => 1
  | .born => 2
  | .retiring => 3

def Occupancy.code : Occupancy → Byte
  | .vacant => 0
  | .occupied => 1

def Pacing.code : Pacing → Byte
  | .block => 0
  | .step => 1
  | .vacant => 2

def Pacing.ofCode : Nat → Option Pacing
  | 0 => some .block
  | 1 => some .step
  | 2 => some .vacant
  | _ => none

def Health.code : Health → Byte
  | .ok => 0
  | .silent => 1

def FailureCause.code : FailureCause → Byte
  | .noReply => 0
  | .short => 1
  | .framing => 2
  | .check => 3

def EdgeKind.code : EdgeKind → Nat
  | .sensed => 0
  | .fixed => 1

def Raw.code : Raw → Nat
  | .unknown => 0
  | .present => 1
  | .absent => 2

def EdgeState.code : EdgeState → Nat
  | .unknown => 0
  | .walled => 1
  | .opened => 2

def Override.code : Override → Nat
  | .none => 0
  | .forceWall => 1
  | .forceOpen => 2

/-- The override an action code asks for: 0 RELEASE, 1 FORCE_WALL, 2 FORCE_OPEN (R177). -/
def Override.ofAction : Nat → Option Override
  | 0 => some .none
  | 1 => some .forceWall
  | 2 => some .forceOpen
  | _ => Option.none

def EndCause.code : EndCause → Byte
  | .paced => 0
  | .deadline => 1
  | .hasten => 2
  | .switch => 3

/-- End causes of a pass-through's collection (R38). -/
inductive PassEnd where
  | none
  | gap
  | count
  | bad
  deriving DecidableEq, Repr

def PassEnd.code : PassEnd → Byte
  | .none => 0
  | .gap => 1
  | .count => 2
  | .bad => 3

/-- Statuses of a reply (R169). -/
inductive Status where
  | done
  | accepted
  | deferred
  | busy
  | notNow
  | notReady
  | badForm
  | outOfRange
  | noSuch
  | full
  | partlyDone
  | overlap
  | unknownKind
  deriving DecidableEq, Repr

def Status.code : Status → Byte
  | .done => 0x00
  | .accepted => 0x01
  | .deferred => 0x02
  | .busy => 0x03
  | .notNow => 0x04
  | .notReady => 0x05
  | .badForm => 0x06
  | .outOfRange => 0x07
  | .noSuch => 0x08
  | .full => 0x09
  | .partlyDone => 0x0A
  | .overlap => 0x0B
  | .unknownKind => 0x0C

/-- A reply: status, detail and the request-specific fields (R169). -/
structure Reply where
  status : Status
  detail : Nat
  fields : List Byte
  deriving DecidableEq, Repr

def Reply.body (r : Reply) : List Byte := r.status.code :: byteOf r.detail :: r.fields

/-- A DONE reply with these fields. -/
def Reply.done (fields : List Byte) : Reply := ⟨.done, 0, fields⟩

/-- A reply without request-specific fields (R169, R177). -/
def Reply.plain (status : Status) (detail : Nat) : Reply := ⟨status, detail, []⟩

/-- The detail that names entry `i` (from 1) of a list (R177). -/
def entryDetail (i : Nat) : Nat := i + 0x80

/-- The reply frame of a request: its kind + 0x80 and its NUMBER (R165, R168). -/
def Reply.frame (kind number : Byte) (r : Reply) : Frame := ⟨kind + 0x80, number, r.body⟩

/-! ### Report frames (R173, R174) -/

/-- The report's code, 0x01..0x0B in the order of R174. -/
def Report.code : Report → Nat
  | .surveyDone => 0x01
  | .solveDone _ => 0x02
  | .solveDiscarded => 0x03
  | .overflow _ => 0x04
  | .cutoverDone _ _ _ _ => 0x05
  | .nodeSilent _ _ => 0x06
  | .nodeBack _ => 0x07
  | .nodeRestarted _ => 0x08
  | .occupancy _ _ => 0x09
  | .heatCall _ _ _ => 0x0A
  | .pinDropped _ _ => 0x0B

/-- The fields of a solve result record, completion time first (R83, R174, R178). -/
def SolveResult.fields (r : SolveResult) : List Byte :=
  bytes32 r.time ++ [byteOf r.found, byteOf r.floorComponents, byteOf r.continued, byteOf r.bornAdmitted,
    byteOf r.overflowBays, byteOf r.retired, byteOf r.toMove]

/-- The code-specific fields (R174). -/
def Report.fields : Report → List Byte
  | .surveyDone => []
  | .solveDone r => r.fields
  | .solveDiscarded => []
  | .overflow bays => [byteOf bays]
  | .cutoverDone listed moved cause elapsed => [byteOf listed, byteOf moved, cause.code] ++ bytes32 elapsed
  | .nodeSilent bay cause => [byteOf bay, cause.code]
  | .nodeBack bay => [byteOf bay]
  | .nodeRestarted bay => [byteOf bay]
  | .occupancy tag o => [byteOf tag, o.code]
  | .heatCall tag call tz => [byteOf tag, byteOfFlag call, byteOr255 tz]
  | .pinDropped bay tag => [byteOf bay, byteOf tag]

/-- A report frame: KIND 0xC0, NUMBER 0, body as R173 lays it out. -/
def Record.frame (r : Record) (lostMarker : Bool) : Frame :=
  ⟨0xC0, 0, byteOf r.report.code :: byteOfFlag lostMarker :: (bytes32 r.stamp ++ r.report.fields)⟩

/-! ### The CORE bitmap of SETUP FLOOR (R179) -/

/-- Whether the bitmap marks bay `b` CORE: byte floor((b - 1) / 8) + 1, weight 2^((b - 1) mod 8). -/
def coreBit (bitmap : List Byte) (b : Nat) : Bool := (bitmap.getD ((b - 1) / 8) 0).getLsbD ((b - 1) % 8)

/-! ### The entries of OVERRIDE EDGES (R192) -/

/-- Each entry is an edge id of two bytes and an action of one. -/
def overrideEntries : List Byte → List (Nat × Nat)
  | hi :: lo :: action :: rest => (word16 hi lo, action.toNat) :: overrideEntries rest
  | _ => []

/-! ### Cell-bus characters (R17 to R21, R38) -/

/-- The characters of a transaction's request, with their mark bits, in order (R17, R19, R38). -/
def Transaction.characters : Transaction → List (Bool × Byte)
  | .poll b => [(true, byteOf b), (false, 0x31), (false, checkByte (b + 0x31))]
  | .drive b p => [(true, byteOf b), (false, 0x32), (false, p.level), (false, p.damper),
      (false, checkByte (b + 0x32 + p.level.toNat + p.damper.toNat))]
  | .pass b body => (true, byteOf b) :: body.map fun c => (false, c)

/-- A body character received whole: mark 0, stop bit high. -/
def RxChar.clean (c : RxChar) : Bool := !c.mark && !c.stopLow

/-- The check of R18: the bay number plus every character of the reply is a multiple of 256. -/
def checkHolds (bay : Nat) (chars : List RxChar) : Bool := (bay + byteSum (chars.map RxChar.data)) % 256 == 0

/-- R21: the outcome of a reply that should have `want` characters and, where `first?` is given, that first one. -/
def judgeReply (bay want : Nat) (first? : Option Byte) (chars : List RxChar) : Option FailureCause :=
  if chars.isEmpty then some .noReply
  else if chars.any (fun c => !c.clean) || decide (want < chars.length) then some .framing
  else if chars.length < want then some .short
  else if !checkHolds bay chars || (first?.any fun b => (chars.head?.map RxChar.data) != some b) then some .check
  else none

/-- The fields of a valid poll reply (section 2.2's table). -/
structure PollReply where
  east : Bool
  south : Bool
  inputs : PollInputs
  keyCounter : Nat
  keyCode : Nat
  echo : Pair
  deriving DecidableEq, Repr

def PollReply.ofChars (chars : List RxChar) : PollReply :=
  let at' (i : Nat) : Byte := (chars.map RxChar.data).getD i 0
  { east := (at' 0).getLsbD 0
    south := (at' 0).getLsbD 1
    inputs := ⟨(at' 0).getLsbD 2, (at' 1).toNat, (at' 0).getLsbD 3⟩
    keyCounter := (at' 2).toNat / 16
    keyCode := (at' 2).toNat % 16
    echo := ⟨at' 3, at' 4⟩ }

/-- The keypad events (R30): key codes 1, 2 and 3; every other code is no event. -/
inductive Key where
  | toggle
  | raise
  | lower
  deriving DecidableEq, Repr

def Key.ofCode : Nat → Option Key
  | 1 => some .toggle
  | 2 => some .raise
  | 3 => some .lower
  | _ => none

/-- How far a pass-through's collection has come (R38): the data bytes collected, the cause that ended it, and the
characters discarded since it ended. -/
structure Collection where
  collected : List Byte
  ended : Option PassEnd
  drained : Nat
  deriving DecidableEq, Repr

/-- One more character of a pass-through's reply (R38). -/
def Collection.take (k : Collection) (c : RxChar) : Collection :=
  match k.ended with
  | some _ => { k with drained := k.drained + 1 }
  | none =>
    if !c.clean then { k with ended := some .bad }
    else
      { k with collected := k.collected ++ [c.data]
               ended := if k.collected.length + 1 = 16 then some .count else none }

def collect (chars : List RxChar) : Collection := chars.foldl Collection.take ⟨[], none, 0⟩

/-- The end cause once reception has ended: NONE or GAP where nothing ended the collection before (R38). -/
def Collection.cause (k : Collection) : PassEnd :=
  match k.ended with
  | some c => c
  | none => if k.collected.isEmpty then .none else .gap

/-- Whether the characters received end reception by their number: the sixteenth (R20), or for a pass-through the
sixteenth after its collection ended (R38). -/
def receptionFull (t : Transaction) (chars : List RxChar) : Bool :=
  match t with
  | .pass _ _ => decide (16 ≤ (collect chars).drained)
  | .poll _ | .drive _ _ => decide (16 ≤ chars.length)

end Sys2Proof.Machine
end

