-- ==== Sys2Proof/Machine/Ops.lean ====
section
/-! DEFINITION. The named operations over the part's collections: sets and lists, bays, edges, zones, timers. -/

namespace Sys2Proof.Machine

/-! ### Lists -/

/-- `f` applied to each element with its number, counting from `n`. -/
def mapFrom {α β : Type} (n : Nat) (f : Nat → α → β) : List α → List β
  | [] => []
  | a :: as => f n a :: mapFrom (n + 1) f as

/-- The elements that `f` keeps, each with its number counting from `n`. -/
def pickFrom {α β : Type} (n : Nat) (f : Nat → α → Option β) : List α → List β
  | [] => []
  | a :: as =>
    match f n a with
    | some b => b :: pickFrom (n + 1) f as
    | none => pickFrom (n + 1) f as

/-- A number added to a set kept in ascending order. -/
def insertSet (x : Nat) : List Nat → List Nat
  | [] => [x]
  | y :: ys => if x < y then x :: y :: ys else if x = y then y :: ys else y :: insertSet x ys

/-- A number taken out of a set. -/
def removeSet (x : Nat) (s : List Nat) : List Nat := s.filter (· ≠ x)

/-- An element put before the first one it must precede. -/
def insertBefore {α : Type} (before : α → α → Bool) (a : α) : List α → List α
  | [] => [a]
  | b :: bs => if before a b then a :: b :: bs else b :: insertBefore before a bs

/-- A list in the order given by `before`. -/
def sortBy {α : Type} (before : α → α → Bool) : List α → List α
  | [] => []
  | a :: as => insertBefore before a (sortBy before as)

/-- Of a list, the element of greatest score; of equal scores, that of lowest rank. -/
def bestBy {α : Type} (score rank : α → Nat) : List α → Option α
  | [] => none
  | a :: as =>
    match bestBy score rank as with
    | none => some a
    | some b => if score b < score a || (score b == score a && decide (rank a ≤ rank b)) then some a else some b

/-! ### Timers -/

/-- Whole floor-clock seconds counted from `since` to `now`, modulo 2^32. -/
def secondsSince (now since : Clock) : Nat := (now - since).toNat

/-- Whether a span of seconds begun in second `since` can have run out. The exact instants lie within their seconds, so
the ticks counted are within one of the time elapsed (log entry 5). -/
def spanMayBeOver (now since : Clock) (span : Nat) : Bool := decide (span ≤ secondsSince now since + 1)

/-- Whether a running timer can expire now. -/
def Timer.mayExpire (now : Clock) : Timer → Bool
  | .running since span => spanMayBeOver now since span
  | .stopped => false
  | .held => false

def Timer.isRunning : Timer → Bool
  | .running _ _ => true
  | .stopped => false
  | .held => false

/-! ### The floor and its bays -/

/-- N, 0 while no floor is configured. -/
def FloorModel.n (f : FloorModel) : Nat := f.bays.length

def FloorModel.cols (f : FloorModel) : Nat := (f.grid.map Grid.cols).getD 0
def FloorModel.rows (f : FloorModel) : Nat := (f.grid.map Grid.rows).getD 0
def FloorModel.v (f : FloorModel) : Nat := (f.grid.map Grid.v).getD 0
def FloorModel.qmax (f : FloorModel) : Nat := (f.grid.map Grid.qmax).getD 0
def FloorModel.sr (f : FloorModel) : Nat := (f.grid.map Grid.sr).getD 0

/-- M = NR × v (R5, R147). -/
def FloorModel.m (f : FloorModel) : Nat := f.nr * f.v

/-- FMAX = NR × QMAX (R5, R147). -/
def FloorModel.fmax (f : FloorModel) : Nat := f.nr * f.qmax

/-- The bay of a number; none outside 1..N (R1). -/
def FloorModel.bay? (f : FloorModel) (b : Nat) : Option Bay := if b = 0 then none else f.bays[b - 1]?

/-- The record of a ROOMABLE bay; none for a CORE bay or a number outside 1..N. -/
def FloorModel.node? (f : FloorModel) (b : Nat) : Option BayRec :=
  match f.bay? b with
  | some (.roomable r) => some r
  | some .core => none
  | none => none

def Bay.mapRec (g : BayRec → BayRec) : Bay → Bay
  | .core => .core
  | .roomable r => .roomable (g r)

/-- The numbers and records of the ROOMABLE bays, ascending. -/
def FloorModel.nodes (f : FloorModel) : List (Nat × BayRec) :=
  pickFrom 1 (fun b bay => match bay with
    | .roomable r => some (b, r)
    | .core => none) f.bays

/-- The numbers of the ROOMABLE bays, ascending. -/
def FloorModel.roomable (f : FloorModel) : List Nat := f.nodes.map Prod.fst

/-- Every ROOMABLE bay's record rewritten from its number and itself. -/
def FloorModel.mapNodes (g : Nat → BayRec → BayRec) (f : FloorModel) : FloorModel :=
  { f with bays := mapFrom 1 (fun b bay => bay.mapRec (g b)) f.bays }

/-- One ROOMABLE bay's record rewritten. -/
def FloorModel.modifyNode (b : Nat) (g : BayRec → BayRec) (f : FloorModel) : FloorModel :=
  f.mapNodes fun b' r => if b' = b then g r else r

/-- The members of the zone with a tag: the bays whose current tag it is, ascending (R98). -/
def FloorModel.membersOf (f : FloorModel) (tag : Nat) : List Nat :=
  (f.nodes.filter fun x => x.2.tag = tag).map Prod.fst

/-! ### The part's blocks, rewritten one at a time -/

def Part.mapSlu (g : Slu → Slu) (p : Part) : Part := { p with slu := g p.slu }
def Part.mapCbm (g : Cbm → Cbm) (p : Part) : Part := { p with cbm := g p.cbm }
def Part.mapFm (g : FloorModel → FloorModel) (p : Part) : Part := { p with fm := g p.fm }
def Part.mapPmon (g : Pmon → Pmon) (p : Part) : Part := { p with pmon := g p.pmon }
def Part.mapRsq (g : Rsq → Rsq) (p : Part) : Part := { p with rsq := g p.rsq }
def Part.mapZt (g : Zt → Zt) (p : Part) : Part := { p with zt := g p.zt }
def Part.mapCut (g : Cut → Cut) (p : Part) : Part := { p with cut := g p.cut }
def Part.mapAfa (g : Afa → Afa) (p : Part) : Part := { p with afa := g p.afa }

/-- The record of a ROOMABLE bay rewritten. -/
def Part.modifyNode (b : Nat) (g : BayRec → BayRec) (p : Part) : Part := p.mapFm (·.modifyNode b g)

/-- A timer started now for a span of seconds. -/
def Part.timerFor (p : Part) (span : Nat) : Timer := .running p.fm.clock span

/-! ### Edges (R2, R3) -/

/-- NV, the count of vertical edges. -/
def vertEdges (cols rows : Nat) : Nat := (cols - 1) * rows

/-- NE, the count of interior edges. -/
def edgeCount (cols rows : Nat) : Nat := vertEdges cols rows + cols * (rows - 1)

def rowOf (cols b : Nat) : Nat := (b - 1) / cols + 1
def colOf (cols b : Nat) : Nat := (b - 1) % cols + 1
def bayAt (cols r c : Nat) : Nat := (r - 1) * cols + c

/-- The vertical edge east of a bay, whose east contact reports it; none in column COLS (R3). -/
def eastEdge (cols b : Nat) : Option Nat :=
  if colOf cols b < cols then some ((rowOf cols b - 1) * (cols - 1) + colOf cols b) else none

/-- The horizontal edge south of a bay, whose south contact reports it; none in row ROWS (R3). -/
def southEdge (cols rows b : Nat) : Option Nat :=
  if rowOf cols b < rows then some (vertEdges cols rows + (rowOf cols b - 1) * cols + colOf cols b) else none

/-- The two bays of an edge, the reporting bay first (R2). -/
def edgeBays (cols rows e : Nat) : Nat × Nat :=
  if e ≤ vertEdges cols rows then
    let r := (e - 1) / (cols - 1) + 1
    let c := (e - 1) % (cols - 1) + 1
    (bayAt cols r c, bayAt cols r (c + 1))
  else
    let k := e - vertEdges cols rows - 1
    let r := k / cols + 1
    let c := k % cols + 1
    (bayAt cols r c, bayAt cols (r + 1) c)

/-- The record of an edge; none outside 1..NE. -/
def Pmon.edge? (m : Pmon) (e : Nat) : Option Edge := if e = 0 then none else m.edges[e - 1]?

/-- One edge's record rewritten. -/
def Pmon.modifyEdge (e : Nat) (g : Edge → Edge) (m : Pmon) : Pmon :=
  { m with edges := mapFrom 1 (fun i x => if i = e then g x else x) m.edges }

/-- R42: the effective state an override and a settled state give. -/
def Edge.effectiveOf (x : Edge) : EdgeState :=
  match x.override with
  | .forceWall => .walled
  | .forceOpen => .opened
  | .none => x.settled

/-! ### Zones -/

/-- The zones in the used slots, in slot order (R86). -/
def Zt.zones (t : Zt) : List Zone := t.slots.filterMap id

/-- The zone that holds a tag. -/
def Zt.zone? (t : Zt) (tag : Nat) : Option Zone := t.zones.find? fun z => z.tag == tag

/-- Every zone record rewritten. -/
def Zt.mapZones (g : Zone → Zone) (t : Zt) : Zt := { t with slots := t.slots.map (Option.map g) }

/-- The record of the zone that holds a tag rewritten. -/
def Zt.modifyZone (tag : Nat) (g : Zone → Zone) (t : Zt) : Zt := t.mapZones fun z => if z.tag = tag then g z else z

/-- The tags of the used slots in ascending order. -/
def Zt.tags (t : Zt) : List Nat := sortBy (fun a b => decide (a ≤ b)) (t.zones.map Zone.tag)

/-- The zone a keypad's pin names, if the bay has an entry (R104). -/
def Zt.pinOf (t : Zt) (bay : Nat) : Option Nat := (t.pins.find? fun x => x.bay == bay).map Pin.tag

/-! ### Free values -/

/-- A free value drawn: the next value drawn is another one (log entry 6). -/
def Part.draw (p : Part) : Part := { p with fresh := p.fresh + 1 }

end Sys2Proof.Machine
end

