-- ==== Sys2Proof/Machine/Flags.lean ====
section
/-! DEFINITION. Report events with the mask and the lost flag (R172), and the computations of the part's bytes and flags
that several blocks share: level and damper bytes, the bytes a bay should show, targets, heat calls. -/

namespace Sys2Proof.Machine

/-- Whether the mask enables a report's code (R172, R195). -/
def Slu.enables (u : Slu) (r : Report) : Bool := u.mask.getD (r.code - 1) false

/-- R172: a report event is dropped if its code is disabled, discarded with the lost flag set if the queue holds 16
records, and otherwise appended with the stamp. -/
def Slu.raise (u : Slu) (r : Report) (stamp : Clock) : Slu :=
  if u.enables r then
    if 16 ≤ u.queue.length then { u with lost := true } else { u with queue := u.queue ++ [⟨r, stamp⟩] }
  else u

/-- A report raised by any block, stamped with the floor clock (R172). -/
def Part.raise (p : Part) (r : Report) : Part := { p with slu := p.slu.raise r p.fm.clock }

/-- Reports raised in one event, in order (R172). -/
def Part.raiseAll (p : Part) (rs : List Report) : Part := rs.foldl Part.raise p

/-- R138: the level byte of an output level. -/
def levelByte (level : Nat) : Byte := byteOf ((level * 250 + 500) / 1000)

/-- R159: the damper byte of a grant. -/
def damperByte (qmax q : Nat) : Byte := byteOf ((q * 250 + qmax / 2) / qmax)

/-- The pair of bytes a bay should show (R31): none before it has an output level. -/
def BayRec.shows (qmax : Nat) (r : BayRec) : Option Pair := r.level.map fun l => ⟨levelByte l, damperByte qmax r.q⟩

/-- R135: the target a zone gives its members. -/
def Zone.target (z : Zone) : Nat :=
  if z.manualOff then 0
  else match z.occupancy with
    | .occupied => z.settings.occupiedLevel
    | .vacant => z.settings.standbyLevel

/-- R137: the fade step of a fade rate. -/
def fadeStep (rate : Nat) : Nat := max 1 (rate / 4)

/-- R137: a level moved one fade step toward a target, never past it. -/
def fadeToward (step target level : Nat) : Nat :=
  if level ≤ target then min target (level + step) else max target (level - step)

/-- R152: a member's usable temperature. -/
def BayRec.usableTemp (r : BayRec) : Option Nat :=
  match r.health, r.inputs with
  | .ok, some i => if i.temp ≠ 255 ∧ ¬ i.fault then some i.temp else none
  | _, _ => none

/-- R152: the mean of the usable temperatures rounded half up, or the value held where there is none. -/
def meanTemp (temps : List Nat) (held : Option Nat) : Option Nat :=
  if temps.isEmpty then held else some ((temps.sum + temps.length / 2) / temps.length)

/-- R153: the heat call is set when Tz is present and below the heat setpoint. -/
def heatCallOf (tz : Option Nat) (heatSetpoint : Nat) : Bool := tz.any fun t => decide (t < heatSetpoint)

/-- R154: the extra per bay. -/
def extraPerBay (v qmax : Nat) (s : Settings) (tz : Option Nat) : Nat :=
  match tz with
  | none => 0
  | some t => if t ≤ s.coolSetpoint then 0 else min (s.gain * (t - s.coolSetpoint) / 4) (qmax - v)

/-- R95: settings clamped in three steps, in this order. -/
def Settings.clamped (s : Settings) : Settings :=
  let occupied := clamp 0 1000 s.occupiedLevel
  let heat := clamp 40 120 s.heatSetpoint
  { occupiedLevel := occupied
    standbyLevel := min occupied (clamp 0 1000 s.standbyLevel)
    vacancyDelay := clamp 30 7200 s.vacancyDelay
    heatSetpoint := heat
    coolSetpoint := max (heat + 4) (clamp 48 128 s.coolSetpoint)
    gain := clamp 0 40 s.gain
    fadeRate := clamp 10 1000 s.fadeRate }

/-- R96: the occupied level raised or lowered by 100, and the standby level lowered to it where it is greater. -/
def Settings.adjust (up : Bool) (s : Settings) : Settings :=
  let occupied := clamp 0 1000 (if up then s.occupiedLevel + 100 else s.occupiedLevel - 100)
  { s with occupiedLevel := occupied, standbyLevel := min occupied s.standbyLevel }

/-- The seven settings as a body carries them (R186, R187). -/
def Settings.fields (s : Settings) : List Byte :=
  bytes16 s.occupiedLevel ++ bytes16 s.standbyLevel ++ bytes16 s.vacancyDelay
    ++ [byteOf s.heatSetpoint, byteOf s.coolSetpoint, byteOf s.gain] ++ bytes16 s.fadeRate

end Sys2Proof.Machine
end

