-- ==== Sys2Proof/Machine/Drive.lean ====
section
/-! DEFINITION. The drive-pending set and the drive writer's choice (R31, R32). -/

namespace Sys2Proof.Machine

/-- A bay joins the drive-pending set; a member already there leaves it as it was (R31). -/
def Part.joinPending (b : Nat) (p : Part) : Part :=
  p.mapCbm fun c => { c with drivePending := insertSet b c.drivePending }

/-- Every ROOMABLE bay joins the drive-pending set (R13, R40). -/
def Part.joinAll (p : Part) : Part := p.fm.roomable.foldl (fun p b => p.joinPending b) p

/-- R31, first row: a bay whose bytes have changed joins the set when the pair it should show differs from the last sent
pair, or no last sent pair is present. -/
def Part.handOver (b : Nat) (p : Part) : Part :=
  match p.fm.node? b with
  | some r => if r.lastSent.isSome && r.lastSent == r.shows p.fm.qmax then p else p.joinPending b
  | none => p

/-- Several bays handed over in order. -/
def Part.handOverAll (bs : List Nat) (p : Part) : Part := bs.foldl (fun p b => p.handOver b) p

/-- R32: a member is eligible when its health is OK, while the floor is RUNNING; a bay with no output level has no level
byte to send (R129), and every bay has one while the floor is RUNNING (log entry 18). -/
def Part.eligible (p : Part) (b : Nat) : Bool :=
  p.fm.state == .running &&
    match p.fm.node? b with
    | some r => r.health == .ok && r.level.isSome
    | none => false

/-- R32: the lowest eligible member above the drive cursor, or else the lowest of the whole set, with the pair its bay
should show at this moment. -/
def Part.nextDrive (p : Part) : Option (Nat × Pair) :=
  let es := p.cbm.drivePending.filter p.eligible
  let choice := match es.find? fun b => decide (p.cbm.driveCursor < b) with
    | some b => some b
    | none => es.head?
  choice.bind fun b => (p.fm.node? b).bind fun r => (r.shows p.fm.qmax).map fun pair => (b, pair)

end Sys2Proof.Machine
end

