-- ==== Sys2Proof/Machine/Lighting.lean ====
section
/-! DEFINITION. The lighting controller: targets, occupancy, manual-off, fading, keypad events (R129 to R146). -/

namespace Sys2Proof.Machine

/-- R135: a bay's target recomputed from the zone its current tag names. -/
def Part.retargetBay (b : Nat) (p : Part) : Part :=
  match p.fm.node? b with
  | some r =>
    match p.zt.zone? r.tag with
    | some z => p.modifyNode b fun r => { r with target := some z.target }
    | none => p
  | none => p

/-- R135: the targets of every member of a zone recomputed. Before the floor is RUNNING there are no targets (R129, log
entry 13). -/
def Part.retargetZone (tag : Nat) (p : Part) : Part :=
  match p.fm.state, p.zt.zone? tag with
  | .running, some z => p.mapFm (·.mapNodes fun _ r => if r.tag = tag then { r with target := some z.target } else r)
  | _, _ => p

/-- R135: every bay's target recomputed, where its zone exists. -/
def Part.retargetAll (p : Part) : Part :=
  p.mapFm (·.mapNodes fun _ r =>
    match p.zt.zone? r.tag with
    | some z => { r with target := some z.target }
    | none => r)

/-- A zone starts OCCUPIED with its timer running from the full vacancy delay (R133); manual-off is left as it is. -/
def Zone.startOccupied (now : Clock) (z : Zone) : Zone :=
  { z with occupancy := .occupied, vacancy := .running now z.settings.vacancyDelay }

/-- R130: an occupied flag for a zone. Set in a VACANT zone, it makes the zone OCCUPIED, raises OCCUPANCY and retargets
the members; set in an OCCUPIED one, it restarts the timer; clear, it has no effect. -/
def Part.occupiedFlag (tag : Nat) (occupied : Bool) (p : Part) : Part :=
  match occupied, p.zt.zone? tag with
  | true, some z =>
    let p' := p.mapZt (·.modifyZone tag (Zone.startOccupied p.fm.clock))
    match z.occupancy with
    | .vacant => (p'.raise (.occupancy tag .occupied)).retargetZone tag
    | .occupied => p'
  | true, none => p
  | false, _ => p

/-- R131: the expiry of a zone's vacancy timer. -/
def Part.vacancyExpiry (tag : Nat) (p : Part) : Part :=
  match p.zt.zone? tag with
  | some z =>
    if z.vacancy.mayExpire p.fm.clock then
      let p := p.mapZt (·.modifyZone tag fun z =>
        { z with occupancy := .vacant, vacancy := .stopped, manualOff := false })
      (p.raise (.occupancy tag .vacant)).retargetZone tag
    else p
  | none => p

/-- R140, R141: what a key does to the record of the zone it reaches. -/
def Zone.press (k : Key) (z : Zone) : Zone :=
  match k with
  | .toggle => { z with manualOff := !z.manualOff }
  | .raise => { z with settings := z.settings.adjust true }
  | .lower => { z with settings := z.settings.adjust false }

/-- R139: where a bay's keypad event goes: its pin's zone if it has an entry, else the zone of its current tag. -/
def Part.keypadZone (b : Nat) (p : Part) : Option Nat :=
  match p.zt.pinOf b with
  | some tag => some tag
  | none => (p.fm.node? b).map BayRec.tag

/-- A keypad event taken by the zone it is routed to, whose members are retargeted (R139 to R141). -/
def Part.keypadEvent (b : Nat) (k : Key) (p : Part) : Part :=
  match p.keypadZone b with
  | some tag => (p.mapZt (·.modifyZone tag (Zone.press k))).retargetZone tag
  | none => p

/-- R137: a bay's level after a fade tick. -/
def BayRec.fade (t : Zt) (r : BayRec) : BayRec :=
  match r.level, r.target, t.zone? r.tag with
  | some l, some g, some z => { r with level := some (fadeToward (fadeStep z.settings.fadeRate) g l) }
  | _, _, _ => r

/-- R138: whether a bay's level byte differs between two records. -/
def levelByteDiffers (old new : BayRec) : Bool := old.level.map levelByte != new.level.map levelByte

/-- R137, R138: a fade tick while the floor is RUNNING. -/
def Part.fadeTick (p : Part) : Part :=
  match p.fm.state with
  | .running =>
    let changed := (p.fm.nodes.filter fun x => levelByteDiffers x.2 (x.2.fade p.zt)).map Prod.fst
    (p.mapFm (·.mapNodes fun _ r => r.fade p.zt)).handOverAll changed
  | .survey => p
  | .unconfigured => p

/-- R144, steps 1 to 3: the lighting at the initial solve's acceptance. Every target is computed, every level becomes its
target and its bay is handed over, and the timer of every LIVE zone starts. -/
def Part.lightFloor (p : Part) : Part :=
  let p := p.retargetAll
  let p := p.mapFm (·.mapNodes fun _ r => { r with level := r.target })
  let p := p.handOverAll p.fm.roomable
  p.mapZt (·.mapZones fun z =>
    if z.life = .live then { z with vacancy := .running p.fm.clock z.settings.vacancyDelay } else z)

end Sys2Proof.Machine
end

