-- ==== Sys2Proof/Machine/Zones.lean ====
section
/-! DEFINITION. The zone table: allocation, counts, anchors, freeing, pins (R86 to R109). -/

namespace Sys2Proof.Machine

/-- R87: the first tag from the counter on, going from 250 to 1, that no used slot holds; `fuel` bounds the tests. -/
def nextFreeTag (used : List Nat) : Nat → Nat → Nat
  | 0, t => t
  | fuel + 1, t => if t ∈ used then nextFreeTag used fuel (if t = 250 then 1 else t + 1) else t

/-- R87: the counter after a tag is given. -/
def tagAfter (t : Nat) : Nat := if t = 250 then 1 else t + 1

/-- R86: a record put into the lowest-numbered FREE slot of a list of slots. -/
def fillFree (z : Zone) : List (Option Zone) → List (Option Zone)
  | [] => []
  | none :: rest => some z :: rest
  | some y :: rest => some y :: fillFree z rest

/-- R91, R93: the record of a born zone at its allocation. -/
def Zone.newborn (tag parent : Nat) (s : Settings) : Zone where
  tag := tag
  life := .born
  parent := some parent
  members := 0
  incoming := 0
  outgoing := 0
  anchor := none
  settings := s
  occupancy := .occupied
  vacancy := .stopped
  manualOff := false
  tz := none
  heatCall := false
  demand := 0
  grant := 0
  foldedBays := 0

/-- The settings zone 0 takes at setup (R9). -/
def Settings.setup : Settings where
  occupiedLevel := 800
  standbyLevel := 200
  vacancyDelay := 900
  heatSetpoint := 80
  coolSetpoint := 96
  gain := 10
  fadeRate := 200

/-- R9: zone 0 at an accepted SETUP FLOOR. -/
def Zone.floorZone (nr m : Nat) (anchor : Option Nat) : Zone where
  tag := 0
  life := .live
  parent := none
  members := nr
  incoming := 0
  outgoing := 0
  anchor := anchor
  settings := .setup
  occupancy := .occupied
  vacancy := .held
  manualOff := false
  tz := none
  heatCall := false
  demand := m
  grant := m
  foldedBays := 0

/-- R80: one born zone allocated, in the lowest FREE slot of 1..63, with the counter's next tag and its parent's settings
as they stand; answers the tag given. Slot 0 is reserved for zone 0 (R86). -/
def Zt.allocate (parent : Nat) (t : Zt) : Zt × Nat :=
  let tag := nextFreeTag (t.zones.map Zone.tag) 250 t.nextTag
  let s := match t.zone? parent with
    | some z => z.settings
    | none => .setup
  ({ t with slots := t.slots.take 1 ++ fillFree (.newborn tag parent s) (t.slots.drop 1), nextTag := tagAfter tag }, tag)

/-- The slots with the zone of a tag gone. -/
def Zt.dropZone (tag : Nat) (t : Zt) : Zt :=
  { t with slots := t.slots.map fun o => o.filter fun z => z.tag != tag }

/-- R90, R107: a zone is freed. Its slot becomes FREE and its record is discarded; every pin naming it is removed, with a
PIN_DROPPED for each in ascending bay order. -/
def Part.freeZone (tag : Nat) (p : Part) : Part :=
  let dropped := p.zt.pins.filter fun x => x.tag == tag
  let p := p.mapZt fun t => { t.dropZone tag with pins := t.pins.filter fun x => x.tag != tag }
  p.raiseAll (dropped.map fun x => .pinDropped x.bay x.tag)

/-- R101: a zone's anchor is its lowest-numbered member. -/
def Part.reanchor (tag : Nat) (p : Part) : Part :=
  p.mapZt (·.modifyZone tag fun z => { z with anchor := (p.fm.membersOf tag).head? })

/-- R100: the zone table's part of a bay's cutover, from its old tag to its new one. -/
def Part.zoneCounts (old new : Nat) (p : Part) : Part :=
  let p := p.mapZt (·.modifyZone old fun z => { z with members := z.members - 1, outgoing := z.outgoing - 1 })
  let p := p.mapZt (·.modifyZone new fun z => { z with members := z.members + 1, incoming := z.incoming - 1 })
  let p := p.mapZt (·.modifyZone new fun z =>
    if z.life = .born then { z with life := .live }.startOccupied p.fm.clock else z)
  let p := (p.reanchor old).reanchor new
  match p.zt.zone? old with
  | some z => if z.life = .retiring ∧ z.members = 0 then p.freeZone old else p
  | none => p

/-- R99: the incoming and outgoing counts of every used slot set from the bays. -/
def Part.setCounts (p : Part) : Part :=
  p.mapZt (·.mapZones fun z =>
    { z with
      incoming := (p.fm.nodes.filter fun x => x.2.nextTag = some z.tag).length
      outgoing := (p.fm.nodes.filter fun x => x.2.tag = z.tag ∧ x.2.nextTag.isSome).length })

/-- R104: a pin put in its place in bay order. -/
def insertPin (x : Pin) : List Pin → List Pin
  | [] => [x]
  | y :: ys => if x.bay < y.bay then x :: y :: ys else y :: insertPin x ys

/-- The bays pinned to a tag, ascending (R103). -/
def Zt.pinnedTo (t : Zt) (tag : Nat) : List Nat := (t.pins.filter fun x => x.tag == tag).map Pin.bay

end Sys2Proof.Machine
end

