-- ==== Sys2Proof/Machine/Airflow.lean ====
section
/-! DEFINITION. The airflow allocator (R147 to R163). -/

namespace Sys2Proof.Machine

/-- A zone's line of an allocation: its tag, its member count n, its excess X and its demand D (R154). -/
structure AirRow where
  tag : Nat
  n : Nat
  excess : Nat
  demand : Nat
  deriving DecidableEq, Repr

/-- R152, R153: a zone with at least one member takes its temperature and heat call; a change of the heat call is
reported. -/
def Part.zoneClimate (p : Part) (tag : Nat) : Part :=
  match p.zt.zone? tag with
  | some z =>
    let temps := (p.fm.nodes.filter fun x => x.2.tag = tag).filterMap fun x => x.2.usableTemp
    let tz := meanTemp temps z.tz
    let call := heatCallOf tz z.settings.heatSetpoint
    let p := p.mapZt (·.modifyZone tag fun z => { z with tz := tz, heatCall := call })
    if call = z.heatCall then p else p.raise (.heatCall tag call tz)
  | none => p

/-- R154: a zone's demand and excess. -/
def airRow (v qmax : Nat) (z : Zone) : AirRow :=
  let x := extraPerBay v qmax z.settings z.tz
  ⟨z.tag, z.members, z.members * x, z.members * (v + x)⟩

/-- R157: the remainder handed out in one pass, 1 L/s to each zone whose share was rounded down, while any is left. -/
def handOut (spare total : Nat) : Nat → List AirRow → List (Nat × Nat)
  | _, [] => []
  | r, row :: rows =>
    let share := row.excess * spare / total
    if 0 < r ∧ 0 < row.excess ∧ row.excess * spare % total ≠ 0 then
      (row.tag, row.demand - row.excess + share + 1) :: handOut spare total (r - 1) rows
    else (row.tag, row.demand - row.excess + share) :: handOut spare total r rows

/-- R155 to R157: the grant of each zone's tag, from the spare budget A = F - M; a zone's n × v is its demand less its
excess. -/
def zoneGrants (spare : Nat) (rows : List AirRow) : List (Nat × Nat) :=
  let total := (rows.map AirRow.excess).sum
  if total ≤ spare then rows.map fun r => (r.tag, r.demand)
  else handOut spare total (spare - (rows.map fun r => r.excess * spare / total).sum) rows

/-- The value an association list gives a key. -/
def lookupTag (tag : Nat) (gs : List (Nat × Nat)) : Option Nat := (gs.find? fun g => g.1 == tag).map Prod.snd

/-- R158: a member's share of its zone's grant, `place` being its place among the members from 0. -/
def bayGrant (grant n place : Nat) : Nat := grant / n + if place < grant % n then 1 else 0

/-- R155, R158: the zones' demands and grants written, 0 for a zone with no member. -/
def Zt.withGrants (rows : List AirRow) (gs : List (Nat × Nat)) (t : Zt) : Zt :=
  t.mapZones fun z =>
    { z with
      demand := ((rows.find? fun r => r.tag == z.tag).map AirRow.demand).getD 0
      grant := (lookupTag z.tag gs).getD 0 }

/-- R158: every bay's grant q, from its zone's grant and its place among the members. -/
def FloorModel.withGrants (rows : List AirRow) (gs : List (Nat × Nat)) (f : FloorModel) : FloorModel :=
  f.mapNodes fun b r =>
    match rows.find? (fun row => row.tag == r.tag), lookupTag r.tag gs with
    | some row, some g => { r with q := bayGrant g row.n ((f.membersOf r.tag).idxOf b) }
    | _, _ => r

/-- R151: one allocation, whole. -/
def Part.allocate (p : Part) : Part :=
  match p.afa.supply with
  | none => p
  | some f =>
    let manned := p.zt.tags.filter fun tag => (p.zt.zone? tag).any fun z => 0 < z.members
    let p := manned.foldl Part.zoneClimate p
    let rows := manned.filterMap fun tag => (p.zt.zone? tag).map (airRow p.fm.v p.fm.qmax)
    let gs := zoneGrants (f - p.fm.m) rows
    let old := p.fm.nodes
    let p := p.mapZt (·.withGrants rows gs)
    let p := p.mapFm (·.withGrants rows gs)
    let changed := old.filter fun x =>
      (p.fm.node? x.1).any fun r => damperByte p.fm.qmax r.q != damperByte p.fm.qmax x.2.q
    let p := p.handOverAll (changed.map Prod.fst)
    p.mapAfa fun a => { a with timer := p.timerFor a.ai }

end Sys2Proof.Machine
end

