-- ==== Sys2Proof/Machine/Sequencer.lean ====
section
/-! DEFINITION. The rezoning sequencer: starting a solve, notices, the return to IDLE (R59 to R66). -/

namespace Sys2Proof.Machine

/-- R64: a solve starts. The sequencer is SOLVING, the snapshot is every edge's effective state, the
changed-since-snapshot and solve-requested flags are cleared, and a solve started while the floor is SURVEY is an initial
one, paced BLOCK. -/
def Part.startSolve (p : Part) : Part :=
  let snap : Snapshot := ⟨p.pmon.edges.map Edge.effective, p.fm.state == .survey⟩
  (p.mapRsq fun r => { r with seq := .solving, requested := false, snapshot := some snap }).mapPmon
    fun m => { m with changed := false }

/-- R62: a notice from the PMON. -/
def Part.notice (p : Part) : Part :=
  if p.fm.state = .running ∧ p.pmon.monitor = .settled ∧ p.pmon.auto = true ∧ p.rsq.seq = .idle then p.startSolve else p

/-- R63, cases 2 to 4: the decision at a return to IDLE while the floor is RUNNING. In the other floor states no solve
starts here (case 1; a stale initial solve is followed by a new one at its completion). -/
def Part.decideAtIdle (p : Part) : Part :=
  if p.fm.state = .running ∧ (p.rsq.requested = true ∨ (p.pmon.monitor = .settled ∧ p.pmon.auto = true)) then
    p.startSolve
  else p

/-- The sequencer returns to IDLE and decides in the same event (R63). -/
def Part.returnToIdle (p : Part) : Part := (p.mapRsq fun r => { r with seq := .idle }).decideAtIdle

end Sys2Proof.Machine
end

