-- ==== Sys2Proof/Machine/Cutover.lean ====
section
/-! DEFINITION. The cutover engine: the bay cutover event, pacing, hastening, completion (R110 to R128). -/

namespace Sys2Proof.Machine

/-- R115: a move count increased by 1, holding at 65 535. -/
def moveCount (n : Nat) : Nat := min 65535 (n + 1)

/-- R114, steps 1 to 6: a bay on the cutover list cuts over, whole. -/
def Part.cutBay (p : Part) (b : Nat) : Part :=
  let p := p.mapCut fun c => { c with list := removeSet b c.list }
  match p.fm.node? b with
  | some r =>
    match r.nextTag with
    | some n =>
      let p := p.modifyNode b fun r => { r with tag := n, nextTag := none, moves := moveCount r.moves }
      let p := (p.zoneCounts r.tag n).retargetBay b
      p.mapCut fun c => { c with run := c.run.map fun x => { x with moved := x.moved + 1 } }
    | none => p
  | none => p

/-- R116: several bays cut over in one event, each whole before the next, in the order given. -/
def Part.cutBays (p : Part) (bs : List Nat) : Part := bs.foldl Part.cutBay p

/-- R126: a cutover's completion. The initial solve's allocation is made by R13 later in its event, so none is made here
before the floor is RUNNING. -/
def Part.completeCutover (cause : EndCause) (p : Part) : Part :=
  let p := p.mapCut fun c => { c with stepTimer := .stopped, deadline := .stopped }
  let p := match p.cut.run with
    | some r => p.raise (.cutoverDone r.listed r.moved cause (p.fm.clock - r.start))
    | none => p
  let p := match p.fm.state with
    | .running => p.allocate
    | .survey => p
    | .unconfigured => p
  (p.mapCut fun c => { c with run := none }).returnToIdle

/-- R125: the cutover completes in the event in which its list becomes empty. -/
def Part.completeIfEmpty (cause : EndCause) (p : Part) : Part :=
  if p.cut.list.isEmpty then p.completeCutover cause else p

/-- Every remaining listed bay cuts over in ascending order and the cutover completes (R116, R121, R123, R124). -/
def Part.cutRemaining (cause : EndCause) (p : Part) : Part := (p.cutBays p.cut.list).completeIfEmpty cause

/-- The listed bays whose health is SILENT, ascending (R117, R123). -/
def Part.silentListed (p : Part) : List Nat :=
  p.cut.list.filter fun b => (p.fm.node? b).any fun r => r.health == .silent

/-- Whole floor-clock seconds since the run record's start; none without a cutover in progress. -/
def Part.cutoverSeconds (p : Part) : Option Nat := p.cut.run.map fun r => secondsSince p.fm.clock r.start

/-- Whether the deadline's expiry command can be taken now (log entry 5). -/
def Part.limitMayBeOver (p : Part) (limit : Nat) : Bool :=
  p.cut.run.any fun r => spanMayBeOver p.fm.clock r.start limit

/-- R117: the cutover list is filled at step 7 of a commit, and the pacing of the solve acts on it. -/
def Part.startCutover (pacing : Pacing) (listed : List Nat) (p : Part) : Part :=
  let p := p.mapCut fun c => { c with list := listed, run := some ⟨p.fm.clock, listed.length, 0⟩ }
  match pacing with
  | .block => p.cutRemaining .paced
  | .step =>
    (p.mapRsq fun r => { r with seq := .cutting }).mapCut fun c =>
      { c with stepTimer := p.timerFor c.interval, deadline := .running c.limit }
  | .vacant =>
    let p := (p.mapRsq fun r => { r with seq := .cutting }).mapCut fun c => { c with deadline := .running c.limit }
    (p.cutBays p.silentListed).completeIfEmpty .paced

/-- R118: a step timer expiry. -/
def Part.stepExpiry (p : Part) : Part :=
  if p.cut.stepTimer.mayExpire p.fm.clock then
    let p := p.cutBays (p.cut.list.take 1)
    if p.cut.list.isEmpty then p.completeCutover .paced
    else p.mapCut fun c => { c with stepTimer := p.timerFor c.interval }
  else p

/-- R119: a valid poll visit of a bay, with its occupied flag. -/
def Part.vacantVisit (b : Nat) (occupied : Bool) (p : Part) : Part :=
  if p.rsq.seq = .cutting ∧ p.cut.mode = .vacant ∧ b ∈ p.cut.list ∧ occupied = false then
    (p.cutBay b).completeIfEmpty .paced
  else p

/-- R120: a bay has become SILENT. -/
def Part.silentVisit (b : Nat) (p : Part) : Part :=
  if p.rsq.seq = .cutting ∧ p.cut.mode = .vacant ∧ b ∈ p.cut.list then (p.cutBay b).completeIfEmpty .paced else p

/-- R113, R121: the deadline's expiry. The deadline is passed; under VACANT pacing every remaining bay cuts over. -/
def Part.deadlineExpiry (p : Part) : Part :=
  match p.cut.deadline with
  | .running limit =>
    if p.rsq.seq = .cutting ∧ p.limitMayBeOver limit = true then
      let p := p.mapCut fun c => { c with deadline := .passed }
      match p.cut.mode with
      | .vacant => p.cutRemaining .deadline
      | .step => p
      | .block => p
    else p
  | .stopped => p
  | .passed => p

/-- R123: the deadline of a cutover in progress moved to a new limit, which passes it at once if that time has been
reached; a passed deadline stays passed. Its expiry falls in the floor-clock second start + limit, at a fraction of it
(R113): before that second it is never reached, after it always, and within it the answer is a free value (log entry 7). -/
def Part.moveDeadline (limit : Nat) (p : Part) : Part :=
  match p.cut.deadline, p.cutoverSeconds with
  | .running _, some counted =>
    if counted < limit then p.mapCut fun c => { c with deadline := .running limit }
    else if limit < counted then p.mapCut fun c => { c with deadline := .passed }
    else
      let reached := Config.fractionReached p.fresh
      p.draw.mapCut fun c => { c with deadline := if reached then .passed else .running limit }
  | .running _, none => p.mapCut fun c => { c with deadline := .running limit }
  | .stopped, _ => p
  | .passed, _ => p

/-- R123: a SET PACING acts on the cutover in progress according to the new mode. -/
def Part.repace (p : Part) : Part :=
  let p := p.moveDeadline p.cut.limit
  match p.cut.mode with
  | .block => p.cutRemaining .switch
  | .step => p.mapCut fun c => { c with stepTimer := p.timerFor c.interval }
  | .vacant =>
    let p := p.mapCut fun c => { c with stepTimer := .stopped }
    if p.cut.deadline = .passed then p.cutRemaining .switch
    else (p.cutBays p.silentListed).completeIfEmpty .switch

end Sys2Proof.Machine
end

