-- ==== Sys2Proof/Machine/Partitions.lean ====
section
/-! DEFINITION. The partition monitor: effective changes, debounce, overrides, the survey's end (R41 to R58). -/

namespace Sys2Proof.Machine

/-- R48: the net change set after an effective change of an edge, measured against its baseline value. -/
def Pmon.noteChange (e : Nat) (now : EdgeState) (m : Pmon) : Pmon :=
  match m.baseline with
  | some base =>
    if base.getD (e - 1) .unknown = now then { m with netChange := removeSet e m.netChange }
    else { m with netChange := insertSet e m.netChange }
  | none => m

/-- R49: the monitor at an effective change while the floor is RUNNING, after the net change set. -/
def Pmon.stir (now : Clock) (m : Pmon) : Pmon :=
  if m.netChange.isEmpty then
    match m.monitor with
    | .unsettled =>
      if m.owed then { m with quiet := .running now m.qt } else { m with quiet := .stopped, monitor := .clean }
    | .clean => m
    | .settled => m
  else { m with quiet := .running now m.qt, monitor := .unsettled }

/-- R48, R49, R55: an effective change handled whole. -/
def Part.effectiveChange (e : Nat) (now : EdgeState) (p : Part) : Part :=
  let p := match p.rsq.seq with
    | .solving => p.mapPmon fun m => { m with changed := true }
    | .idle => p
    | .cutting => p
  match p.fm.state with
  | .running => p.mapPmon fun m => (m.noteChange e now).stir p.fm.clock
  | .survey => p
  | .unconfigured => p

/-- R42: an edge's record rewritten and its effective state recomputed; where that differs from before, it is an effective
change. -/
def Part.rewriteEdge (e : Nat) (g : Edge → Edge) (p : Part) : Part :=
  match p.pmon.edge? e with
  | some x =>
    let y := g x
    let y := { y with effective := y.effectiveOf }
    let p := p.mapPmon (·.modifyEdge e fun _ => y)
    if y.effective = x.effective then p else p.effectiveChange e y.effective
  | none => p

/-- The settled state a reported value corresponds to (R41). -/
def settledBy (present : Bool) : EdgeState := if present then .walled else .opened

/-- The count a report that does not agree brings its candidate to (R43). -/
def candidateCount (present : Bool) (c : Option Candidate) : Nat :=
  match c with
  | some k => if k.present = present then k.count + 1 else 1
  | none => 1

/-- R43: what a contact does to a SENSED edge's record. -/
def Edge.contact (sr : Nat) (present : Bool) (x : Edge) : Edge :=
  let x := { x with raw := if present then .present else .absent }
  let count := candidateCount present x.candidate
  if x.settled = settledBy present then { x with candidate := none }
  else if sr ≤ count then { x with settled := settledBy present, candidate := none }
  else { x with candidate := some ⟨present, count⟩ }

/-- A contact handed to the PMON: it goes to a SENSED edge, and is dropped where it has no edge or a FIXED one (R3, R43). -/
def Part.contact (e : Option Nat) (present : Bool) (p : Part) : Part :=
  match e with
  | some e =>
    match p.pmon.edge? e with
    | some x =>
      match x.kind with
      | .sensed => p.rewriteEdge e (Edge.contact p.fm.sr present)
      | .fixed => p
    | none => p
  | none => p

/-- The two contacts of a poll reply, the east edge's first (R43). -/
def Part.contacts (b : Nat) (east south : Bool) (p : Part) : Part :=
  (p.contact (eastEdge p.fm.cols b) east).contact (southEdge p.fm.cols p.fm.rows b) south

/-- R44: the candidates of the SENSED edges a bay reports are made absent when it becomes SILENT. -/
def Part.clearCandidates (b : Nat) (p : Part) : Part :=
  let clear (p : Part) (e : Option Nat) : Part :=
    match e with
    | some e => p.mapPmon (·.modifyEdge e fun x => { x with candidate := none })
    | none => p
  clear (clear p (eastEdge p.fm.cols b)) (southEdge p.fm.cols p.fm.rows b)

/-- The bad-entry causes of OVERRIDE EDGES, in the order tested (R192): none where the entry is good. -/
def Part.badEntry (p : Part) (entry : Nat × Nat) : Option Nat :=
  match p.pmon.edge? entry.1 with
  | none => some 1
  | some x =>
    match x.kind with
    | .fixed => some 2
    | .sensed => if (Override.ofAction entry.2).isSome then none else some 3

/-- R45: one good entry applied, as one event. -/
def Part.applyOverride (p : Part) (entry : Nat × Nat) : Part :=
  match Override.ofAction entry.2 with
  | some o => p.rewriteEdge entry.1 fun x => { x with override := o }
  | none => p

/-- R192: entries applied in order up to the first bad one; the count applied, and the bad one's cause. -/
def Part.applyOverrides (p : Part) : List (Nat × Nat) → Part × Nat × Option Nat
  | [] => (p, 0, none)
  | entry :: rest =>
    match p.badEntry entry with
    | some cause => (p, 0, some cause)
    | none =>
      let (q, applied, cause) := (p.applyOverride entry).applyOverrides rest
      (q, applied + 1, cause)

/-- R12: an edge still UNKNOWN at the survey's end settled by its raw field. -/
def Edge.settleAtEnd (x : Edge) : Edge :=
  if x.kind = .sensed ∧ x.settled = .unknown then
    let y := { x with settled := if x.raw = Raw.present then .walled else .opened, candidate := none }
    { y with effective := y.effectiveOf }
  else x

/-- R12, R56: the survey ends. Every edge still UNKNOWN is settled, with no effective change reaching any set, monitor or
flag, and the initial solve starts. -/
def Part.endSurvey (p : Part) : Part :=
  let p := p.mapPmon fun m => { m with edges := m.edges.map Edge.settleAtEnd }
  (p.mapFm fun f => { f with surveyOver := true }).startSolve

/-- R11: the floor model is told of a completed round. -/
def Part.countRound (p : Part) : Part :=
  if p.fm.state = .survey ∧ p.fm.surveyOver = false then
    let p := p.mapFm fun f => { f with surveyRounds := f.surveyRounds + 1 }
    if p.fm.sr + 3 ≤ p.fm.surveyRounds then p.endSurvey else p
  else p

/-- R50: the quiet timer's expiry. -/
def Part.quietExpiry (p : Part) : Part :=
  if p.pmon.quiet.mayExpire p.fm.clock then
    (p.mapPmon fun m => { m with quiet := .stopped, monitor := .settled }).notice
  else p

/-- R51: SET ROLES taken while the floor is RUNNING. -/
def Part.rolesChanged (p : Part) : Part :=
  (p.mapPmon fun m => { m with owed := true, quiet := .stopped, monitor := .settled }).notice

/-- The edge records of a new floor (R10, R41). -/
def newEdge (fixed : Bool) : Edge :=
  if fixed then ⟨.fixed, .unknown, .walled, none, .none, .walled⟩ else ⟨.sensed, .unknown, .unknown, none, .none, .unknown⟩

/-- R58: an edge's raw field and candidate at a warm restart. -/
def Edge.restarted (x : Edge) : Edge :=
  match x.kind with
  | .sensed =>
    { x with
      candidate := none
      raw := match x.settled with
        | .walled => .present
        | .opened => .absent
        | .unknown => .unknown }
  | .fixed => x

end Sys2Proof.Machine
end

