-- ==== Sys2Proof/Machine/Solver.lean ====
section
/-! DEFINITION. The room solver: components, overlaps, mutual best, capacity, parents (R68 to R77). -/

namespace Sys2Proof.Machine

/-- A component (R68): its bays in ascending order. -/
structure Component where
  key : Nat
  bays : List Nat
  deriving DecidableEq, Repr

def Component.size (c : Component) : Nat := c.bays.length

/-- What a solve reads (R64, R65). `tagOf` is the current tag of each ROOMABLE bay, in bay order; `zones` the tags of the
LIVE room zones. -/
structure SolveInput where
  cols : Nat
  rows : Nat
  n : Nat
  snapshot : List EdgeState
  tagOf : List (Nat × Nat)
  spine : List Nat
  rl : Nat
  zones : List Nat
  deriving DecidableEq, Repr

/-- The current tag of a bay. -/
def SolveInput.tag (i : SolveInput) (b : Nat) : Option Nat := lookupTag b i.tagOf

/-- The pairs of ROOMABLE bays joined by an edge that is OPEN in the snapshot (R68). -/
def SolveInput.joins (i : SolveInput) : List (Nat × Nat) :=
  (pickFrom 1 (fun e x => if x = EdgeState.opened then some (edgeBays i.cols i.rows e) else none) i.snapshot).filter
    fun ab => (i.tag ab.1).isSome && (i.tag ab.2).isSome

/-- Two joined bays both take the lower of their labels; labels are indexed by bay number, place 0 unused. -/
def joinLabels (labels : List Nat) (ab : Nat × Nat) : List Nat :=
  let m := min (labels.getD ab.1 0) (labels.getD ab.2 0)
  (labels.set ab.1 m).set ab.2 m

/-- One pass over the joins. -/
def labelPass (joins : List (Nat × Nat)) (labels : List Nat) : List Nat := joins.foldl joinLabels labels

/-- A number of passes. -/
def labelPasses (joins : List (Nat × Nat)) : Nat → List Nat → List Nat
  | 0, labels => labels
  | k + 1, labels => labelPasses joins k (labelPass joins labels)

/-- Each bay's label: the lowest bay number that open edges lead to. A pass carries a label at least one step, so N passes
carry it to every bay of the component. -/
def SolveInput.labels (i : SolveInput) : List Nat := labelPasses i.joins i.n (List.range (i.n + 1))

/-- R68: the components in ascending order of key. -/
def SolveInput.components (i : SolveInput) : List Component :=
  let labels := i.labels
  let bays := i.tagOf.map Prod.fst
  (bays.filter fun b => labels.getD b 0 == b).map fun k => ⟨k, bays.filter fun b => labels.getD b 0 == k⟩

/-- R69: a floor component contains a spine bay or is larger than RL. -/
def SolveInput.isFloor (i : SolveInput) (c : Component) : Bool :=
  (c.bays.any fun b => decide (b ∈ i.spine)) || decide (i.rl < c.size)

/-- R70: the bays of a component whose current tag is a zone's. -/
def SolveInput.overlap (i : SolveInput) (c : Component) (tag : Nat) : Nat :=
  (c.bays.filter fun b => i.tag b == some tag).length

/-- R71: a room component's best zone. -/
def SolveInput.bestZone (i : SolveInput) (c : Component) : Option Nat :=
  bestBy (i.overlap c) id (i.zones.filter fun z => 0 < i.overlap c z)

/-- R72: a room zone's best component. -/
def SolveInput.bestComponent (i : SolveInput) (rooms : List Component) (z : Nat) : Option Component :=
  bestBy (fun c => i.overlap c z) Component.key (rooms.filter fun c => 0 < i.overlap c z)

/-- R73: the zone a room component continues, by mutual choice. -/
def SolveInput.continues (i : SolveInput) (rooms : List Component) (c : Component) : Option Nat :=
  (i.bestZone c).filter fun z => ((i.bestComponent rooms z).map Component.key) == some c.key

/-- R74: larger first, then lower key. -/
def ranksBefore (a b : Component) : Bool := decide (b.size < a.size) || (a.size == b.size && decide (a.key ≤ b.key))

/-- R76: a born component's parent: the zone of greatest overlap, zone 0 included, the lower tag on a tie. -/
def SolveInput.parent (i : SolveInput) (c : Component) : Nat :=
  (bestBy (i.overlap c) id (c.bays.filterMap i.tag)).getD 0

/-- The outcome of a solve before its commit: what each component becomes (R77) and the counts of R83. -/
structure Plan where
  found : Nat
  floor : List Component
  /-- Continuing components with the tags they continue. -/
  kept : List (Component × Nat)
  /-- Admitted born components in ranking order, with their parents. -/
  admitted : List (Component × Nat)
  overflowing : List Component
  /-- The room zones continued by no component, ascending in the order of the input. -/
  retiring : List Nat
  deriving DecidableEq, Repr

/-- R74: P, the born components a commit may admit. -/
def places (continued liveZones : Nat) : Nat := min (31 - continued) (62 - liveZones)

/-- R68 to R76: the solve. -/
def SolveInput.plan (i : SolveInput) : Plan :=
  let comps := i.components
  let rooms := comps.filter fun c => !i.isFloor c
  let kept := rooms.filterMap fun c => (i.continues rooms c).map fun z => (c, z)
  let born := sortBy ranksBefore (rooms.filter fun c => (i.continues rooms c).isNone)
  let p := places kept.length i.zones.length
  { found := comps.length
    floor := comps.filter i.isFloor
    kept := kept
    admitted := (born.take p).map fun c => (c, i.parent c)
    overflowing := born.drop p
    retiring := i.zones.filter fun z => !(kept.any fun k => k.2 == z) }

/-- R75: the count of bays in all overflowing components. -/
def Plan.overflowBays (p : Plan) : Nat := (p.overflowing.map Component.size).sum

/-- R77: the planned tag of a bay, given the tags the commit gave the admitted components by their keys. -/
def Plan.plannedTag (p : Plan) (given : List (Nat × Nat)) (b : Nat) : Nat :=
  match p.kept.find? fun k => decide (b ∈ k.1.bays) with
  | some k => k.2
  | none =>
    match p.admitted.find? fun a => decide (b ∈ a.1.bays) with
    | some a => (lookupTag a.1.key given).getD 0
    | none => 0

/-- R75: whether a bay is folded. -/
def Plan.isFolded (p : Plan) (b : Nat) : Bool := p.overflowing.any fun c => decide (b ∈ c.bays)

end Sys2Proof.Machine
end

