-- ==== Sys2Proof/Machine/Commit.lean ====
section
/-! DEFINITION. The completion of a solve: the stale check, the commit and the initial solve's further steps
(R13, R78 to R83). -/

namespace Sys2Proof.Machine

/-- R65: what a solve reads beside its snapshot. None of it changes while the sequencer is SOLVING, so it is read at the
completion (log entry 16). -/
def Part.solveInput (p : Part) (edges : List EdgeState) : SolveInput where
  cols := p.fm.cols
  rows := p.fm.rows
  n := p.fm.n
  snapshot := edges
  tagOf := p.fm.nodes.map fun x => (x.1, x.2.tag)
  spine := p.fm.spine
  rl := p.fm.rl
  zones := (p.zt.zones.filter fun z => z.life = .live ∧ z.tag ≠ 0).map Zone.tag

/-- R79, step 1, and R94: parent tags made absent, then one record for each admitted component in ranking order; answers
the tags given, by key. -/
def Zt.allocateAll (t : Zt) : List (Component × Nat) → Zt × List (Nat × Nat)
  | [] => (t, [])
  | a :: rest =>
    let (t, tag) := t.allocate a.2
    let (t, given) := t.allocateAll rest
    (t, (a.1.key, tag) :: given)

/-- R79, step 2: a retiring zone is marked RETIRING, or freed at once where it has no member. -/
def Part.retire (p : Part) (tag : Nat) : Part :=
  match p.zt.zone? tag with
  | some z => if z.members = 0 then p.freeZone tag else p.mapZt (·.modifyZone tag fun z => { z with life := .retiring })
  | none => p

/-- R79, step 3: next tags and folded marks. A bay whose planned tag is its current one keeps no next tag (R77). -/
def BayRec.planned (plan : Plan) (given : List (Nat × Nat)) (b : Nat) (r : BayRec) : BayRec :=
  let tag := plan.plannedTag given b
  { r with nextTag := if tag = r.tag then none else some tag, folded := plan.isFolded b }

/-- R52: the monitor at an accepted completion. -/
def Pmon.accept (edges : List EdgeState) (m : Pmon) : Pmon :=
  { m with baseline := some edges, netChange := [], quiet := .stopped, owed := false, monitor := .clean }

/-- The moving bays: those with a next tag, ascending (R77). -/
def Part.movingBays (p : Part) : List Nat := (p.fm.nodes.filter fun x => x.2.nextTag.isSome).map Prod.fst

/-- R83: the solve result record of an accepted solve. -/
def Plan.result (plan : Plan) (now : Clock) (toMove : Nat) : SolveResult where
  time := now
  found := plan.found
  floorComponents := plan.floor.length
  continued := plan.kept.length
  bornAdmitted := plan.admitted.length
  overflowBays := plan.overflowBays
  retired := plan.retiring.length
  toMove := toMove

/-- R79, steps 1 to 6. -/
def Part.commit (plan : Plan) (edges : List EdgeState) (p : Part) : Part :=
  let (zt, given) := (p.zt.mapZones fun z => { z with parent := none }).allocateAll plan.admitted
  let p := plan.retiring.foldl Part.retire { p with zt := zt }
  let p := (p.mapFm (·.mapNodes (BayRec.planned plan given))).setCounts
  let p := p.mapZt (·.modifyZone 0 fun z => { z with foldedBays := plan.overflowBays })
  let p := p.mapPmon (Pmon.accept edges)
  let result := plan.result p.fm.clock p.movingBays.length
  let p := p.mapRsq fun r => { r with snapshot := none, result := some result }
  let p := p.raise (.solveDone result)
  if 0 < plan.overflowBays then p.raise (.overflow plan.overflowBays) else p

/-- R79, step 7, and R81: the hand-off of the moving bays. -/
def Part.handOff (pacing : Pacing) (p : Part) : Part :=
  if p.movingBays.isEmpty then p.returnToIdle else p.startCutover pacing p.movingBays

/-- R13, steps 2 to 5, at the accepted initial solve's completion, after its cutovers. -/
def Part.enterRunning (p : Part) : Part :=
  let p := p.lightFloor.allocate.joinAll
  (p.mapFm fun f => { f with state := .running }).raise .surveyDone

/-- R78, R13, R63: a stale result is discarded whole. -/
def Part.discardSolve (p : Part) : Part :=
  let p := (p.mapRsq fun r => { r with seq := .idle, snapshot := none }).raise .solveDiscarded
  match p.fm.state with
  | .survey => p.startSolve
  | .running => p.decideAtIdle
  | .unconfigured => p.decideAtIdle

/-- R78: a solve's completion. -/
def Part.completeSolve (p : Part) : Part :=
  match p.rsq.seq, p.rsq.snapshot with
  | .solving, some snap =>
    if p.pmon.changed then p.discardSolve
    else
      let p := p.commit (p.solveInput snap.edges).plan snap.edges
      if snap.initial then (p.handOff .block).enterRunning else p.handOff p.cut.mode
  | _, _ => p

end Sys2Proof.Machine
end

