-- ==== Sys2Proof/Machine/Link.lean ====
section
/-! DEFINITION. The supervisory link: the transmitter's choice, replies, the request in flight (R164 to R173). -/

namespace Sys2Proof.Machine

/-- R171: the reply is chosen before the OVERLAP reply where both wait, unless the OVERLAP reply became ready first. -/
def Slu.nextReply (u : Slu) : Option (TxSource × Frame) :=
  match u.replySlot, u.overlapSlot with
  | some r, some o => if u.overlapFirst then some (.overlap, o) else some (.reply, r)
  | some r, none => some (.reply, r)
  | none, some o => some (.overlap, o)
  | none, none => none

/-- R168, R171: a frame's transmission begins. The overlap slot is emptied when its reply begins; the reply slot keeps its
reply until the last byte has been sent (R170). -/
def Slu.begin (u : Slu) (source : TxSource) (f : Frame) : Slu :=
  match source with
  | .overlap => { u with tx := .sending .overlap f, overlapSlot := none, overlapFirst := false }
  | .reply => { u with tx := .sending .reply f }
  | .report => { u with tx := .sending .report f }

/-- R173: the oldest record leaves the queue and is sent, carrying the lost marker if the lost flag is set, which is then
cleared. -/
def Slu.beginReport (u : Slu) : Slu :=
  match u.queue with
  | [] => u
  | r :: rest => ({ u with queue := rest, lost := false }).begin .report (r.frame u.lost)

/-- R171: the transmitter's choice at the end of an event, made only while it is idle. -/
def Slu.choose (u : Slu) : Slu :=
  match u.tx with
  | .sending _ _ => u
  | .idle =>
    match u.nextReply with
    | some (source, f) => u.begin source f
    | none => u.beginReport

def Part.choose (p : Part) : Part := p.mapSlu Slu.choose

/-- R170: the reply to the request in flight is placed in the reply slot. -/
def Slu.placeReply (u : Slu) (r : Reply) : Slu :=
  match u.inFlight with
  | some q => { u with replySlot := some (r.frame q.kind q.number), overlapFirst := u.overlapSlot.isSome }
  | none => u

def Part.placeReply (r : Reply) (p : Part) : Part := p.mapSlu (·.placeReply r)

/-- R168: a request that arrives while another is in flight is answered OVERLAP, or dropped if the overlap slot is
full. A reply already waiting became ready first. -/
def Slu.offerOverlap (u : Slu) (kind number : Byte) : Slu :=
  match u.overlapSlot with
  | some _ => u
  | none =>
    { u with overlapSlot := some ((Reply.plain .overlap 0).frame kind number), overlapFirst := u.replySlot.isNone }

/-- R167, R168: a request is taken in the event of its CHECK byte, after which the assembler hunts. With none in flight it
becomes the request in flight, and `handle` is its owning block's handling, which answers the reply, or none where the
reply is built later (R170). With one in flight it is not executed. The transmitter chooses at the end of the event. -/
def Part.takeRequest (kind number : Byte) (handle : Part → Part × Option Reply) (p : Part) : Part :=
  let p := p.mapSlu fun u => { u with assembler := .hunting }
  match p.slu.inFlight with
  | some _ => (p.mapSlu (·.offerOverlap kind number)).choose
  | none =>
    match handle (p.mapSlu fun u => { u with inFlight := some ⟨kind, number⟩ }) with
    | (p, some r) => (p.placeReply r).choose
    | (p, none) => p.choose

/-- A handling whose reply is built in the arrival event (R170). -/
def replying (handle : Part → Part × Reply) (p : Part) : Part × Option Reply :=
  ((handle p).1, some (handle p).2)

/-- R177: a check that refuses the request with a reply, leaving the part as it was, or passes. -/
def checked (p : Part) (refusal : Option Reply) (go : Part × Reply) : Part × Reply :=
  match refusal with
  | some r => (p, r)
  | none => go

/-- R177, step 1: a body whose length must be exactly `n`. -/
def lengthIs (n : Nat) (body : List Byte) : Option Reply := if body.length = n then none else some (.plain .badForm 0)

/-- R177, step 2: a kind that is not taken while the floor is UNCONFIGURED. -/
def Part.configured (p : Part) : Option Reply :=
  if p.fm.state = .unconfigured then some (.plain .notReady 0) else none

end Sys2Proof.Machine
end

