-- ==== Sys2Proof/Machine/CellBus.lean ====
section
/-! DEFINITION. The cell bus master: the arbiter, poll rounds, replies, health, pass-through (R17 to R40). -/

namespace Sys2Proof.Machine

/-! ### The arbiter and the poll sequencer -/

/-- R26: whether a ROOMABLE bay is due in the current round. -/
def Cbm.due (c : Cbm) (x : Nat × BayRec) : Bool :=
  decide (c.pollCursor < x.1) && (x.2.health == .ok || c.roundNumber % 8 == 0)

/-- R26: the lowest-numbered due bay. -/
def Part.dueBay (p : Part) : Option Nat := (p.fm.nodes.find? p.cbm.due).map Prod.fst

/-- R29: the current round completes, and the floor model is told. -/
def Part.completeRound (p : Part) : Part :=
  (p.mapCbm fun c => { c with roundNumber := (c.roundNumber + 1) % 65536, pollCursor := 0 }).countRound

/-- R26: the poll sequencer takes a due bay. -/
def Part.grantPoll (b : Nat) (p : Part) : Part :=
  p.mapCbm fun c => { c with pollCursor := b, bus := .sending (.poll b) false }

/-- R29: a due bay of the present round is taken; with none, the idle hold begins. -/
def Part.pollOrHold (p : Part) : Part :=
  match p.dueBay with
  | some b => p.grantPoll b
  | none => p.mapCbm fun c => { c with bus := .hold false }

/-- R36, steps 3 and 4: the grant to the poll sequencer, completing the round first if no bay is due above the cursor. -/
def Part.grantPolling (p : Part) : Part :=
  let p := p.mapCbm fun c => { c with driveRun := 0 }
  match p.dueBay with
  | some b => p.grantPoll b
  | none => p.completeRound.pollOrHold

/-- R32: a DRIVE granted to a bay, with the pair it should show at the grant. -/
def Part.grantDrive (b : Nat) (pair : Pair) (p : Part) : Part :=
  p.mapCbm fun c => { c with driveCursor := b, driveRun := c.driveRun + 1, bus := .sending (.drive b pair) false }

/-- R36: one grant of the arbiter, in the order of preference, with the poll sequencer's turn given as `poll`. -/
def Part.grantWith (poll : Part → Part) (p : Part) : Part :=
  match p.fm.state with
  | .unconfigured => p.mapCbm fun c => { c with bus := .quiet }
  | .survey | .running =>
    match p.cbm.passSlot with
    | some x => p.mapCbm fun c => { c with bus := .sending (.pass x.bay x.body) false }
    | none =>
      match p.nextDrive with
      | some (b, pair) => if p.cbm.driveRun < 4 then p.grantDrive b pair else poll p
      | none => poll p

/-- R36: the arbiter's grant at the end of a transaction. -/
def Part.arbitrate (p : Part) : Part := p.grantWith Part.grantPolling

/-- The arbiter's grant at the end of an idle hold: the idle round has just completed, so the poll sequencer looks for a due
bay in the new round at once, and with none begins the next hold (R29). -/
def Part.arbitrateAfterHold (p : Part) : Part :=
  p.grantWith fun p => (p.mapCbm fun c => { c with driveRun := 0 }).pollOrHold

/-- R36: a free bus is granted at the moment a client first has something to send. -/
def Part.kickBus (p : Part) : Part :=
  match p.cbm.bus with
  | .quiet => p.arbitrate
  | .hold _ => p
  | .sending _ _ => p
  | .receiving _ _ _ => p

/-- R29: the end of an idle hold. A hold caught by a setup or a warm restart completes no round (log entry 10). -/
def Part.endHold (p : Part) : Part :=
  match p.cbm.bus with
  | .hold true => p.arbitrate
  | .hold false => p.completeRound.arbitrateAfterHold
  | .quiet => p
  | .sending _ _ => p
  | .receiving _ _ _ => p

/-! ### Health -/

/-- R25: what the CBM tells the PMON and the CUT when a bay becomes SILENT. -/
def Part.becameSilent (b : Nat) (p : Part) : Part := (p.clearCandidates b).silentVisit b

/-- R23: a failed POLL or DRIVE with a bay. -/
def Part.failed (b : Nat) (cause : FailureCause) (p : Part) : Part :=
  match p.fm.node? b with
  | some r =>
    match r.health with
    | .ok =>
      if r.failures + 1 < 3 then
        p.modifyNode b fun r => { r with lastFailure := some cause, failures := r.failures + 1 }
      else
        let p := p.modifyNode b fun r => { r with lastFailure := some cause, failures := 3, health := .silent }
        (p.raise (.nodeSilent b cause)).becameSilent b
    | .silent => p.modifyNode b fun r => { r with lastFailure := some cause }
  | none => p

/-- R24: a valid poll reply returns a SILENT bay to service. -/
def Part.comeBack (b : Nat) (p : Part) : Part :=
  match p.fm.node? b with
  | some r =>
    match r.health with
    | .silent =>
      let p := p.modifyNode b fun r => { r with health := .ok, failures := 0, keyCounter := none }
      (p.raise (.nodeBack b)).joinPending b
    | .ok => p
  | none => p

/-! ### Replies -/

/-- R30: the keypad event a reply gives, from the stored counter and the reply's. -/
def keypadOf (stored : Option Nat) (counter code : Nat) : Option Key :=
  match stored with
  | none => none
  | some k => if k = counter then none else Key.ofCode code

/-- R35: the echoes compared with the last sent pair, for a bay outside the drive-pending set that has one. -/
def Part.checkEcho (b : Nat) (echo : Pair) (p : Part) : Part :=
  match (p.fm.node? b).bind BayRec.lastSent with
  | some sent =>
    if b ∉ p.cbm.drivePending ∧ sent ≠ echo then (p.raise (.nodeRestarted b)).joinPending b else p
  | none => p

/-- R27, step 5, to the LC: the occupied flag first, then the keypad event, while the floor is RUNNING. -/
def Part.tellLighting (b : Nat) (occupied : Bool) (key : Option Key) (p : Part) : Part :=
  match p.fm.state with
  | .running =>
    let p := match p.fm.node? b with
      | some r => p.occupiedFlag r.tag occupied
      | none => p
    match key with
    | some k => p.keypadEvent b k
    | none => p
  | .survey => p
  | .unconfigured => p

/-- R27: a valid poll reply from a bay, in one event; the steps of R24 come first when it was SILENT. -/
def Part.validPoll (b : Nat) (reply : PollReply) (p : Part) : Part :=
  let p := p.comeBack b
  let key := keypadOf ((p.fm.node? b).bind BayRec.keyCounter) reply.keyCounter reply.keyCode
  let p := p.modifyNode b fun r =>
    { r with failures := 0, inputs := some reply.inputs, keyCounter := some reply.keyCounter }
  let p := (p.checkEcho b reply.echo).contacts b reply.east reply.south
  (p.tellLighting b reply.inputs.occupied key).vacantVisit b reply.inputs.occupied

/-- R33: a valid drive reply from a bay. -/
def Part.validDrive (b : Nat) (sent : Pair) (p : Part) : Part :=
  let p := p.modifyNode b fun r => { r with failures := 0, lastSent := some sent }
  let p := p.mapCbm fun c => { c with drivePending := removeSet b c.drivePending }
  match (p.fm.node? b).bind fun r => r.shows p.fm.qmax with
  | some now => if now = sent then p else p.joinPending b
  | none => p

/-- R38: the exchange of a pass-through ends. Its reply is built and the slot is cleared. -/
def Part.endPass (chars : List RxChar) (p : Part) : Part :=
  let k := collect chars
  let reply := Reply.done (byteOf k.collected.length :: k.cause.code :: k.collected)
  (p.mapCbm fun c => { c with passSlot := none }).placeReply reply

/-- The outcome of a transaction applied at the end of its reception (R21, R27, R28, R33, R34, R38). -/
def Part.applyOutcome (t : Transaction) (chars : List RxChar) (p : Part) : Part :=
  match t with
  | .poll b =>
    match judgeReply b 6 none chars with
    | some cause => p.failed b cause
    | none => p.validPoll b (.ofChars chars)
  | .drive b sent =>
    match judgeReply b 2 (some 0x3C) chars with
    | some cause => p.failed b cause
    | none => p.validDrive b sent
  | .pass _ _ => p.endPass chars

/-- R20: reception ends. The outcome is applied, unless a setup or a warm restart has voided it (R10, R40), the
transaction is over, and the arbiter makes its next grant. -/
def Part.endReception (p : Part) : Part :=
  match p.cbm.bus with
  | .receiving t void chars =>
    let p := p.mapCbm fun c => { c with bus := .quiet }
    ((if void then p else p.applyOutcome t chars).arbitrate).choose
  | .quiet => p
  | .hold _ => p
  | .sending _ _ => p

/-- R20: the request's last stop bit ends, CB_DE goes low and reception opens. -/
def Part.openReception (p : Part) : Part :=
  match p.cbm.bus with
  | .sending t void => p.mapCbm fun c => { c with bus := .receiving t void [] }
  | .quiet => p
  | .hold _ => p
  | .receiving _ _ _ => p

/-- R20, R38: a character arrives. It is recorded while reception is open, and discarded otherwise; the one that fills the
reception ends it in the same event (log entry 9). -/
def Part.receiveCharacter (ch : RxChar) (p : Part) : Part :=
  match p.cbm.bus with
  | .receiving t void chars =>
    let chars := chars ++ [ch]
    let p := p.mapCbm fun c => { c with bus := .receiving t void chars }
    if receptionFull t chars then p.endReception else p
  | .quiet => p
  | .hold _ => p
  | .sending _ _ => p

/-- A transaction or hold on the bus is voided (R10, R40). -/
def Bus.voided : Bus → Bus
  | .quiet => .quiet
  | .hold _ => .hold true
  | .sending t _ => .sending t true
  | .receiving t _ chars => .receiving t true chars

/-- CB_DE, the line-driver enable: high while the part sends (R17). -/
def Bus.driverEnabled : Bus → Bool
  | .sending _ _ => true
  | .quiet => false
  | .hold _ => false
  | .receiving _ _ _ => false

end Sys2Proof.Machine
end

