-- ==== Sys2Proof/Machine/Restart.lean ====
section
/-! DEFINITION. The cold and the warm restart of every block, and the end of a transmitted frame (R170, R171, and each
chapter's restart rules). -/

namespace Sys2Proof.Machine

/-- A cold restart: every block at its cold value (00_scope.md "Restarts"). The count of free values drawn is no state of
the part and stands (log entry 19). -/
def Part.coldRestart (p : Part) : Part := { Part.cold with fresh := p.fresh }

/-- R15, R40: a ROOMABLE bay's record at a warm restart, but for its target. -/
def BayRec.restarted (r : BayRec) : BayRec :=
  { r with health := .ok, failures := 0, keyCounter := none, inputs := none, nextTag := none }

/-- R11, R16: the floor model keeps its setup; a survey starts again from zero. -/
def FloorModel.restarted (f : FloorModel) : FloorModel :=
  let f := f.mapNodes fun _ r => r.restarted
  match f.state with
  | .survey => { f with surveyRounds := 0, surveyOver := false }
  | .running => f
  | .unconfigured => f

/-- R40: the cell bus master's working state. -/
def Cbm.restarted (roomable : List Nat) (c : Cbm) : Cbm :=
  { pollCursor := 0, roundNumber := 0, drivePending := roomable, driveCursor := 0, driveRun := 0, passSlot := none
    bus := c.bus.voided }

/-- R58: the monitor after a warm restart, in the order of its table. -/
def Pmon.restarted (floor : FloorState) (discarded : Bool) (now : Clock) (m : Pmon) : Pmon :=
  let m := { m with edges := m.edges.map Edge.restarted, changed := false, quiet := .stopped }
  match floor with
  | .unconfigured => { m with monitor := .clean }
  | .survey => { m with monitor := .clean }
  | .running =>
    if discarded then { m with owed := true, monitor := .settled }
    else if m.owed then { m with monitor := .settled }
    else if m.netChange.isEmpty then { m with monitor := .clean }
    else { m with monitor := .unsettled, quiet := .running now m.qt }

/-- R84: the sequencer after a warm restart. -/
def Rsq.restarted (r : Rsq) : Rsq := { r with seq := .idle, requested := false, snapshot := none }

/-- R109, step 2 and 3, for one zone. -/
def Zone.restarted (z : Zone) : Zone := { z with life := .live, incoming := 0, outgoing := 0 }

/-- R145, step 1, for one zone: OCCUPIED with a full timer, held again while the floor is SURVEY. -/
def Zone.relit (floor : FloorState) (now : Clock) (z : Zone) : Zone :=
  let z := { z.startOccupied now with manualOff := false }
  match floor with
  | .survey => { z with vacancy := .held }
  | .running => z
  | .unconfigured => z

/-- R109: BORN zones freed with their pins and no report, RETIRING ones revived, counts of moving bays cleared. -/
def Zt.restarted (t : Zt) : Zt :=
  let born := (t.zones.filter fun z => z.life = .born).map Zone.tag
  { t with
    slots := t.slots.map fun o => (o.filter fun z => z.life != .born).map Zone.restarted
    pins := t.pins.filter fun x => decide (x.tag ∉ born) }

/-- R127: the cutover discarded. -/
def Cut.restarted (c : Cut) : Cut := { c with list := [], stepTimer := .stopped, deadline := .stopped, run := none }

/-- R163: the allocation interval timer while the floor is RUNNING. -/
def Afa.restarted (floor : FloorState) (now : Clock) (a : Afa) : Afa :=
  match floor with
  | .running => { a with timer := .running now a.ai }
  | .survey => a
  | .unconfigured => a

/-- R176: the report queue emptied and the lost flag cleared. -/
def Slu.restarted (u : Slu) : Slu := { u with queue := [], lost := false }

/-- R145, step 2: the targets after the zone table's steps; before the floor is RUNNING there are none (log entry 13). -/
def Part.retargetRunning (p : Part) : Part :=
  match p.fm.state with
  | .running => p.retargetAll
  | .survey => p
  | .unconfigured => p

/-- A warm restart: every block's working state reinitialised around the kept setup and zoning, then R63. -/
def Part.warmRestart (p : Part) : Part :=
  let floor := p.fm.state
  let now := p.fm.clock
  let discarded := p.rsq.seq != .idle
  let p : Part :=
    { slu := p.slu.restarted
      cbm := p.cbm.restarted p.fm.roomable
      fm := p.fm.restarted
      pmon := p.pmon.restarted floor discarded now
      rsq := p.rsq.restarted
      zt := p.zt.restarted.mapZones (Zone.relit floor now)
      cut := p.cut.restarted
      afa := p.afa.restarted floor now
      fresh := p.fresh }
  p.retargetRunning.decideAtIdle

/-- R170: the reply's last byte has been sent. The reply slot is emptied, the request in flight ends, and a restart it
ordered takes effect. -/
def Part.endReply (p : Part) : Part :=
  let owed := p.slu.restartOwed
  let p := p.mapSlu fun u => { u with tx := .idle, replySlot := none, inFlight := none, restartOwed := none }
  match owed with
  | some .warm => p.warmRestart
  | some .cold => p.coldRestart
  | none => p

/-- R171: the end of a transmitted frame, and the transmitter's next choice. -/
def Part.frameSent (p : Part) : Part :=
  match p.slu.tx with
  | .idle => p
  | .sending .reply _ => p.endReply.choose
  | .sending .overlap _ => (p.mapSlu fun u => { u with tx := .idle }).choose
  | .sending .report _ => (p.mapSlu fun u => { u with tx := .idle }).choose

end Sys2Proof.Machine
end

