-- ==== Sys2Proof/Machine/SetupRequests.lean ====
section
/-! DEFINITION. The identity, floor setup, report mask and restart requests (R4, R7 to R10, R178 to R180, R195, R196). -/

namespace Sys2Proof.Machine

/-! ### IDENTIFY -/

/-- The fields of IDENTIFY's reply (R178). -/
def Part.identityFields (p : Part) : List Byte :=
  [0x2B, 0x61, 0x00, 0xC0, 0x01, p.fm.state.code, p.rsq.seq.code, p.pmon.monitor.code]
    ++ bytes32 p.fm.clock
    ++ [byteOf p.fm.nr, byteOf p.fm.cols, byteOf p.fm.rows]
    ++ match p.rsq.result with
      | some r => 1 :: r.fields
      | none => List.replicate 12 0

/-- R178. -/
def handleIdentify (body : List Byte) (p : Part) : Part × Reply :=
  checked p (lengthIs 0 body) (p, .done p.identityFields)

def execIdentify (number : Byte) (body : List Byte) (s : State) : Host.Outcome State Fault Refusal :=
  .next { s with part := s.part.takeRequest 0x01 number (replying (handleIdentify body)) }

/-! ### SETUP FLOOR -/

/-- A constant given as 0 takes its default (R5). -/
def orDefault (x default : Nat) : Nat := if x = 0 then default else x

/-- The values a SETUP FLOOR body carries, with defaults applied (R5, R179). -/
def setupGrid (body : List Byte) : Grid where
  cols := fieldAt body 0
  rows := fieldAt body 1
  v := orDefault (fieldAt body 26) 10
  qmax := orDefault (fieldAt body 27) 60
  sr := orDefault (fieldAt body 28) 2

/-- The CORE bitmap of a SETUP FLOOR body (R179). -/
def setupBitmap (body : List Byte) : List Byte := (body.drop 2).take 24

/-- Bays 1..n. -/
def bayNumbers (n : Nat) : List Nat := List.range' 1 n

/-- R8: the first field that fails, by its number. -/
def setupFieldFault (g : Grid) (bitmap : List Byte) : Option Nat :=
  let n := g.cols * g.rows
  if g.cols < 2 ∨ 16 < g.cols then some 1
  else if g.rows < 2 ∨ 12 < g.rows then some 2
  else if (bayNumbers 192).any fun b => decide (n < b) && coreBit bitmap b then some 3
  else if (bayNumbers n).all (coreBit bitmap) then some 3
  else if g.v < 5 ∨ 40 < g.v then some 4
  else if g.qmax < g.v + 10 ∨ 250 < g.qmax then some 5
  else if g.sr < 1 ∨ 8 < g.sr then some 6
  else none

/-- R15: a ROOMABLE bay's record after an accepted SETUP FLOOR. -/
def BayRec.setup (v : Nat) : BayRec where
  health := .ok
  failures := 0
  lastFailure := none
  keyCounter := none
  lastSent := none
  inputs := none
  tag := 0
  nextTag := none
  folded := false
  moves := 0
  level := none
  target := none
  q := v

/-- The bay records of a new floor (R1, R15). -/
def setupBays (g : Grid) (bitmap : List Byte) : List Bay :=
  (bayNumbers (g.cols * g.rows)).map fun b => if coreBit bitmap b then .core else .roomable (.setup g.v)

/-- R3, R41: the edge records of a new floor: fixed where either bay is CORE. -/
def setupEdges (g : Grid) (bitmap : List Byte) : List Edge :=
  (List.range' 1 (edgeCount g.cols g.rows)).map fun e =>
    let ab := edgeBays g.cols g.rows e
    newEdge (coreBit bitmap ab.1 || coreBit bitmap ab.2)

/-- The floor model of a new floor (R9): the floor clock is kept (R10). -/
def FloorModel.setup (g : Grid) (bitmap : List Byte) (f : FloorModel) : FloorModel :=
  let f : FloorModel :=
    { state := .survey, grid := some g, nr := 0, spine := [], rl := 24, clock := f.clock, surveyRounds := 0
      surveyOver := false, bays := setupBays g bitmap }
  { f with nr := f.roomable.length }

/-- R9, R10: what an accepted SETUP FLOOR establishes in every block. -/
def Part.setupFloor (g : Grid) (bitmap : List Byte) (p : Part) : Part :=
  let fm := p.fm.setup g bitmap
  { p with
    fm := fm
    zt := { slots := some (.floorZone fm.nr fm.m fm.roomable.head?) :: List.replicate 63 none, nextTag := 1, pins := [] }
    cbm := { p.cbm with
      pollCursor := 0, roundNumber := 0, drivePending := [], driveCursor := 0, driveRun := 0, bus := p.cbm.bus.voided }
    pmon := { p.pmon with
      edges := setupEdges g bitmap, baseline := none, netChange := [], monitor := .clean, quiet := .stopped
      owed := false, changed := false }
    rsq := { p.rsq with seq := .idle, requested := false, snapshot := none }
    cut := { p.cut with list := [], stepTimer := .stopped, deadline := .stopped, run := none }
    afa := { p.afa with supply := some fm.m, timer := .stopped } }

/-- R7: the states in which a SETUP FLOOR is refused. -/
def Part.setupBusy (p : Part) : Option Reply :=
  match p.fm.state, p.rsq.seq with
  | .unconfigured, _ => none
  | .survey, .idle => none
  | .survey, .solving => some (.plain .busy 0)
  | .survey, .cutting => some (.plain .busy 0)
  | .running, .idle => none
  | .running, .solving => some (.plain .busy 0)
  | .running, .cutting => some (.plain .busy 0)

/-- R7 to R10, R179. The arbiter's next grant starts round 0; a free bus is granted at once. -/
def handleSetupFloor (body : List Byte) (p : Part) : Part × Reply :=
  checked p (lengthIs 29 body) <|
  checked p p.setupBusy <|
  let g := setupGrid body
  let bitmap := setupBitmap body
  checked p ((setupFieldFault g bitmap).map (.plain .outOfRange)) <|
  let q := p.setupFloor g bitmap
  (q.kickBus, .done (byteOf q.fm.nr :: bytes16 (edgeCount g.cols g.rows) ++ [byteOf g.v, byteOf g.qmax, byteOf g.sr]))

def execSetupFloor (number : Byte) (body : List Byte) (s : State) : Host.Outcome State Fault Refusal :=
  .next { s with part := s.part.takeRequest 0x02 number (replying (handleSetupFloor body)) }

/-! ### SET ROLES -/

/-- R180, form: n + 2 bytes with n in 0..32; a failure names field 2. -/
def rolesForm (body : List Byte) : Option Reply :=
  if 2 ≤ body.length ∧ fieldAt body 1 ≤ 32 ∧ body.length = fieldAt body 1 + 2 then none else some (.plain .badForm 2)

/-- R4: the states in which a SET ROLES is refused. -/
def Part.rolesState (p : Part) : Option Reply :=
  match p.fm.state, p.rsq.seq with
  | .unconfigured, _ => some (.plain .notReady 0)
  | .survey, .solving => some (.plain .busy 0)
  | .running, .solving => some (.plain .busy 0)
  | .survey, .idle => none
  | .survey, .cutting => none
  | .running, .idle => none
  | .running, .cutting => none

/-- R4, R180: the first entry that is no ROOMABLE bay of the floor, counting from `i`. -/
def FloorModel.badRole (f : FloorModel) (i : Nat) : List Nat → Option Nat
  | [] => none
  | b :: bs => if (f.node? b).isSome then f.badRole (i + 1) bs else some (entryDetail i)

/-- R4: the entries are checked first, then RL. -/
def FloorModel.rolesFault (f : FloorModel) (rl : Nat) (bays : List Nat) : Option Nat :=
  match f.badRole 1 bays with
  | some d => some d
  | none => if rl < 2 ∨ 96 < rl then some 1 else none

/-- R4: a spine list is kept in ascending order, a bay named twice held once. -/
def spineOf (bays : List Nat) : List Nat := bays.foldl (fun s b => insertSet b s) []

/-- R4, R51: the roles stored; while the floor is RUNNING they act on the monitor. -/
def Part.takeRoles (rl : Nat) (spine : List Nat) (p : Part) : Part :=
  let p := p.mapFm fun f => { f with rl := rl, spine := spine }
  match p.fm.state with
  | .running => p.rolesChanged
  | .survey => p
  | .unconfigured => p

/-- R4, R51, R180. -/
def handleSetRoles (body : List Byte) (p : Part) : Part × Reply :=
  checked p (rolesForm body) <|
  checked p p.rolesState <|
  let rl := fieldAt body 0
  let bays := (body.drop 2).map BitVec.toNat
  checked p ((p.fm.rolesFault rl bays).map (.plain .outOfRange)) <|
  let spine := spineOf bays
  (p.takeRoles rl spine, .done (byteOf rl :: byteOf spine.length :: spine.map byteOf))

def execSetRoles (number : Byte) (body : List Byte) (s : State) : Host.Outcome State Fault Refusal :=
  .next { s with part := s.part.takeRequest 0x03 number (replying (handleSetRoles body)) }

/-! ### SET REPORTS and RESTART -/

/-- R195: the first enable other than 0 or 1, by its field number counting from `i`. -/
def badEnable (i : Nat) : List Byte → Option Nat
  | [] => none
  | b :: bs => if b = 0 ∨ b = 1 then badEnable (i + 1) bs else some i

/-- R195. -/
def handleSetReports (body : List Byte) (p : Part) : Part × Reply :=
  checked p (lengthIs 11 body) <|
  checked p ((badEnable 1 body).map (.plain .outOfRange)) <|
  (p.mapSlu fun u => { u with mask := body.map (· == 1) }, .done body)

def execSetReports (number : Byte) (body : List Byte) (s : State) : Host.Outcome State Fault Refusal :=
  .next { s with part := s.part.takeRequest 0x13 number (replying (handleSetReports body)) }

/-- The restart an option byte asks for: 1 WARM, 2 COLD (R196). -/
def RestartOption.ofCode : Nat → Option RestartOption
  | 1 => some .warm
  | 2 => some .cold
  | _ => none

/-- R170, R196: the restart takes effect when its reply has been sent. -/
def handleRestart (body : List Byte) (p : Part) : Part × Reply :=
  checked p (lengthIs 1 body) <|
  match RestartOption.ofCode (fieldAt body 0) with
  | some o => (p.mapSlu fun u => { u with restartOwed := some o }, .done body)
  | none => (p, .plain .outOfRange 1)

def execRestart (number : Byte) (body : List Byte) (s : State) : Host.Outcome State Fault Refusal :=
  .next { s with part := s.part.takeRequest 0x14 number (replying (handleRestart body)) }

end Sys2Proof.Machine
end

