-- ==== Sys2Proof/Machine/RezoneRequests.lean ====
section
/-! DEFINITION. The rezoning, pacing, supply, zone, override, keypad and pass-through requests that change the part
(R181 to R186, R192 to R194). -/

namespace Sys2Proof.Machine

/-! ### SET AUTO and SOLVE -/

/-- R54: the auto flag and the clamped QT; switching auto from off to on under a SETTLED monitor while the floor is RUNNING
is a notice. -/
def Part.setAuto (auto : Bool) (qt : Nat) (p : Part) : Part :=
  let was := p.pmon.auto
  let p := p.mapPmon fun m => { m with auto := auto, qt := clamp 5 600 qt }
  if was = false ∧ auto = true then p.notice else p

/-- R54, R181. -/
def handleSetAuto (body : List Byte) (p : Part) : Part × Reply :=
  checked p (lengthIs 3 body) <|
  checked p (if fieldAt body 0 ≤ 1 then none else some (.plain .outOfRange 1)) <|
  let q := p.setAuto (fieldAt body 0 == 1) (field16At body 1)
  (q, .done (byteOfFlag q.pmon.auto :: bytes16 q.pmon.qt))

def execSetAuto (number : Byte) (body : List Byte) (s : State) : Host.Outcome State Fault Refusal :=
  .next { s with part := s.part.takeRequest 0x04 number (replying (handleSetAuto body)) }

/-- R61, R182. -/
def handleSolve (body : List Byte) (p : Part) : Part × Reply :=
  checked p (lengthIs 0 body) <|
  match p.fm.state with
  | .unconfigured => (p, .plain .notReady 0)
  | .survey => (p, .plain .notReady 0)
  | .running =>
    match p.rsq.seq with
    | .idle => (p.startSolve, .plain .accepted 0)
    | .solving => (p, .plain .busy 0)
    | .cutting => (p.mapRsq fun r => { r with requested := true }, .plain .deferred 0)

def execSolve (number : Byte) (body : List Byte) (s : State) : Host.Outcome State Fault Refusal :=
  .next { s with part := s.part.takeRequest 0x05 number (replying (handleSolve body)) }

/-! ### SET PACING and HASTEN -/

/-- R122: the values replace those held, and act on a cutover in progress (R123). -/
def Part.setPacing (mode : Pacing) (interval limit : Nat) (p : Part) : Part :=
  let p := p.mapCut fun c => { c with mode := mode, interval := clamp 1 60 interval, limit := clamp 60 7200 limit }
  match p.rsq.seq with
  | .cutting => p.repace
  | .idle => p
  | .solving => p

/-- R122, R123, R183. The bays cut over in the handling are those that left the list in it. -/
def handleSetPacing (body : List Byte) (p : Part) : Part × Reply :=
  checked p (lengthIs 4 body) <|
  match Pacing.ofCode (fieldAt body 0) with
  | none => (p, .plain .outOfRange 1)
  | some mode =>
    let q := p.setPacing mode (fieldAt body 1) (field16At body 2)
    (q, .done (mode.code :: byteOf q.cut.interval :: bytes16 q.cut.limit
      ++ [byteOf (p.cut.list.length - q.cut.list.length)]))

def execSetPacing (number : Byte) (body : List Byte) (s : State) : Host.Outcome State Fault Refusal :=
  .next { s with part := s.part.takeRequest 0x06 number (replying (handleSetPacing body)) }

/-- R124, R184. -/
def handleHasten (body : List Byte) (p : Part) : Part × Reply :=
  checked p (lengthIs 0 body) <|
  match p.rsq.seq with
  | .cutting => (p.cutRemaining .hasten, .done [byteOf p.cut.list.length])
  | .idle => (p, .plain .notNow 0)
  | .solving => (p, .plain .notNow 0)

def execHasten (number : Byte) (body : List Byte) (s : State) : Host.Outcome State Fault Refusal :=
  .next { s with part := s.part.takeRequest 0x07 number (replying (handleHasten body)) }

/-! ### SET SUPPLY -/

/-- R148: the clamped budget and interval replace those held; while the floor is RUNNING an allocation runs. -/
def Part.setSupply (budget interval : Nat) (p : Part) : Part :=
  let p := p.mapAfa fun a => { a with supply := some (clamp p.fm.m p.fm.fmax budget), ai := clamp 10 300 interval }
  match p.fm.state with
  | .running => p.allocate
  | .survey => p
  | .unconfigured => p

/-- R148, R185. -/
def handleSetSupply (body : List Byte) (p : Part) : Part × Reply :=
  checked p (lengthIs 4 body) <|
  checked p p.configured <|
  let q := p.setSupply (field16At body 0) (field16At body 2)
  (q, .done (bytes16 (q.afa.supply.getD 0) ++ bytes16 q.fm.m ++ bytes16 q.fm.fmax ++ bytes16 q.afa.ai))

def execSetSupply (number : Byte) (body : List Byte) (s : State) : Host.Outcome State Fault Refusal :=
  .next { s with part := s.part.takeRequest 0x08 number (replying (handleSetSupply body)) }

/-! ### SET ZONE -/

/-- The seven settings a SET ZONE body carries (R186). -/
def requestedSettings (body : List Byte) : Settings where
  occupiedLevel := field16At body 1
  standbyLevel := field16At body 3
  vacancyDelay := field16At body 5
  heatSetpoint := fieldAt body 7
  coolSetpoint := fieldAt body 8
  gain := fieldAt body 9
  fadeRate := field16At body 10

/-- R95, R186. -/
def handleSetZone (body : List Byte) (p : Part) : Part × Reply :=
  checked p (lengthIs 12 body) <|
  checked p p.configured <|
  let tag := fieldAt body 0
  match p.zt.zone? tag with
  | none => (p, .plain .noSuch 1)
  | some _ =>
    let settings := (requestedSettings body).clamped
    ((p.mapZt (·.modifyZone tag fun z => { z with settings := settings })).retargetZone tag,
      .done (byteOf tag :: settings.fields))

def execSetZone (number : Byte) (body : List Byte) (s : State) : Host.Outcome State Fault Refusal :=
  .next { s with part := s.part.takeRequest 0x09 number (replying (handleSetZone body)) }

/-! ### OVERRIDE EDGES -/

/-- R192, form: 3n + 1 bytes with n in 1..48; a failure names field 1. -/
def overrideForm (body : List Byte) : Option Reply :=
  if 1 ≤ fieldAt body 0 ∧ fieldAt body 0 ≤ 48 ∧ body.length = 3 * fieldAt body 0 + 1 then none
  else some (.plain .badForm 1)

/-- R45, R192. -/
def handleOverrideEdges (body : List Byte) (p : Part) : Part × Reply :=
  checked p (overrideForm body) <|
  checked p p.configured <|
  let entries := overrideEntries (body.drop 1)
  match p.applyOverrides entries with
  | (q, applied, none) => (q, .done [byteOf applied, 0, 0])
  | (q, applied, some cause) =>
    (q, ⟨.partlyDone, applied + 1, [byteOf applied, byteOf (entries.length - applied), byteOf cause]⟩)

def execOverrideEdges (number : Byte) (body : List Byte) (s : State) : Host.Outcome State Fault Refusal :=
  .next { s with part := s.part.takeRequest 0x0F number (replying (handleOverrideEdges body)) }

/-! ### PIN KEYPAD and UNPIN KEYPAD -/

/-- R105, R193. -/
def handlePinKeypad (body : List Byte) (p : Part) : Part × Reply :=
  checked p (lengthIs 2 body) <|
  checked p p.configured <|
  let bay := fieldAt body 0
  let tag := fieldAt body 1
  checked p (if (p.fm.node? bay).isSome then none else some (.plain .outOfRange 1)) <|
  checked p (if (p.zt.zone? tag).isSome then none else some (.plain .noSuch 2)) <|
  match p.zt.pinOf bay with
  | some old =>
    (p.mapZt fun t => { t with pins := t.pins.map fun x => if x.bay = bay then ⟨bay, tag⟩ else x },
      .done [byteOf p.zt.pins.length, byteOf old])
  | none =>
    if 16 ≤ p.zt.pins.length then (p, .plain .full 0)
    else
      (p.mapZt fun t => { t with pins := insertPin ⟨bay, tag⟩ t.pins }, .done [byteOf (p.zt.pins.length + 1), 255])

def execPinKeypad (number : Byte) (body : List Byte) (s : State) : Host.Outcome State Fault Refusal :=
  .next { s with part := s.part.takeRequest 0x10 number (replying (handlePinKeypad body)) }

/-- R106, R193. -/
def handleUnpinKeypad (body : List Byte) (p : Part) : Part × Reply :=
  checked p (lengthIs 1 body) <|
  checked p p.configured <|
  let bay := fieldAt body 0
  checked p (if (p.fm.node? bay).isSome then none else some (.plain .outOfRange 1)) <|
  match p.zt.pinOf bay with
  | none => (p, .plain .noSuch 1)
  | some old =>
    let q := p.mapZt fun t => { t with pins := t.pins.filter fun x => x.bay != bay }
    (q, .done [byteOf old, byteOf q.zt.pins.length])

def execUnpinKeypad (number : Byte) (body : List Byte) (s : State) : Host.Outcome State Fault Refusal :=
  .next { s with part := s.part.takeRequest 0x11 number (replying (handleUnpinKeypad body)) }

/-! ### PASS THROUGH -/

/-- R194: the checks that refuse a PASS THROUGH in its handling. -/
def Part.passFault (p : Part) (body : List Byte) : Option Reply :=
  if body.length < 2 ∨ 13 < body.length then some (.plain .badForm 0)
  else if p.fm.state = .unconfigured then some (.plain .notReady 0)
  else if (p.fm.node? (fieldAt body 0)).isSome then none
  else some (.plain .noSuch 1)

/-- R37, R194: the request is placed in the pass-through slot, and its reply is built when the exchange ends. -/
def handlePassThrough (body : List Byte) (p : Part) : Part × Option Reply :=
  match p.passFault body with
  | some r => (p, some r)
  | none => ((p.mapCbm fun c => { c with passSlot := some ⟨fieldAt body 0, body.drop 1⟩ }).kickBus, none)

def execPassThrough (number : Byte) (body : List Byte) (s : State) : Host.Outcome State Fault Refusal :=
  .next { s with part := s.part.takeRequest 0x12 number (handlePassThrough body) }

end Sys2Proof.Machine
end

