-- ==== Sys2Proof/Machine/ReadRequests.lean ====
section
/-! DEFINITION. The requests that read zones, bays, edges and changes (R187 to R191). -/

namespace Sys2Proof.Machine

/-! ### READ ZONE and LIST ZONES -/

/-- The vacancy time remaining in whole seconds: 0 while the timer is stopped, the full delay while it is held (R103,
R133, R187). Of a running timer, the exact time remaining lies within a second of the span less the ticks counted;
`slack` is the free value that settles the whole second shown (log entry 6). -/
def vacancyRemaining (now : Clock) (delay : Nat) (slack : Fin 3) : Timer → Nat
  | .stopped => 0
  | .held => delay
  | .running since span => min span (span + slack.val - (secondsSince now since + 1))

/-- The fields of READ ZONE's reply (R103, R187), with the vacancy time remaining. -/
def Zone.fields (pinned : List Nat) (remaining : Nat) (z : Zone) : List Byte :=
  [byteOf z.tag, z.life.code, byteOr255 z.parent, byteOf z.members, byteOf z.incoming, byteOf z.outgoing,
    bayOrZero z.anchor]
    ++ z.settings.fields
    ++ z.occupancy.code :: bytes16 remaining
    ++ [byteOfFlag z.manualOff, byteOr255 z.tz, byteOfFlag z.heatCall]
    ++ bytes16 z.demand ++ bytes16 z.grant
    ++ byteOf z.foldedBays :: byteOf pinned.length :: pinned.map byteOf

/-- R103, R187. Reading a running vacancy timer draws a free value; nothing else changes. -/
def handleReadZone (body : List Byte) (p : Part) : Part × Reply :=
  checked p (lengthIs 1 body) <|
  checked p p.configured <|
  match p.zt.zone? (fieldAt body 0) with
  | none => (p, .plain .noSuch 1)
  | some z =>
    let remaining := vacancyRemaining p.fm.clock z.settings.vacancyDelay (Config.secondSlack p.fresh) z.vacancy
    (if z.vacancy.isRunning then p.draw else p, .done (z.fields (p.zt.pinnedTo z.tag) remaining))

def execReadZone (number : Byte) (body : List Byte) (s : State) : Host.Outcome State Fault Refusal :=
  .next { s with part := s.part.takeRequest 0x0A number (replying (handleReadZone body)) }

/-- A zone's entry in LIST ZONES, its life state coded in the bytes (R188). R110 speaks of incoming counts in LIST ZONES, for
which R103 and R188 give the entry no place: the model's choice is R188's three bytes (log entry 32). -/
def Zone.entry (z : Zone) : List Byte :=
  match z.life with
  | .retiring => [byteOf z.tag, byteOf (256 - z.members), byteOf (256 - z.anchor.getD 0)]
  | .live => [byteOf z.tag, byteOf z.members, bayOrZero z.anchor]
  | .born => [byteOf z.tag, byteOf z.members, bayOrZero z.anchor]

/-- R103, R188. -/
def handleListZones (body : List Byte) (p : Part) : Part × Reply :=
  checked p (lengthIs 0 body) <|
  checked p p.configured <|
  (p, .done (byteOf p.zt.zones.length :: p.zt.zones.flatMap Zone.entry))

def execListZones (number : Byte) (body : List Byte) (s : State) : Host.Outcome State Fault Refusal :=
  .next { s with part := s.part.takeRequest 0x0B number (replying (handleListZones body)) }

/-! ### READ BAY -/

/-- The poll inputs as READ BAY shows them, after their presence flag (R189). -/
def inputFields : Option PollInputs → List Byte
  | some i => [1, byteOfFlag i.occupied, byteOf i.temp, byteOfFlag i.fault]
  | none => [0, 255, 255, 255]

/-- The last sent pair, 255 each while absent (R189). -/
def pairFields : Option Pair → List Byte
  | some p => [p.level, p.damper]
  | none => [255, 255]

/-- A cause of failure, 255 while absent (R189). -/
def causeField : Option FailureCause → Byte
  | some c => c.code
  | none => 255

/-- The fields of READ BAY's reply (R189): a CORE bay's carry their absent values, or 0 where they have none. -/
def Bay.fields (b : Nat) : Bay → List Byte
  | .roomable r =>
    [byteOf b, 0, r.health.code, byteOf r.failures, causeField r.lastFailure, byteOf r.tag, byteOr255 r.nextTag,
      byteOfFlag r.folded]
      ++ inputFields r.inputs ++ [byteOr255 r.keyCounter] ++ pairFields r.lastSent
      ++ bytes16OrFFFF r.level ++ bytes16OrFFFF r.target ++ byteOf r.q :: bytes16 r.moves
  | .core =>
    [byteOf b, 1, 0, 0, 255, 255, 255, 0] ++ inputFields none ++ [255] ++ pairFields none
      ++ bytes16OrFFFF none ++ bytes16OrFFFF none ++ 0 :: bytes16 0

/-- R189. -/
def handleReadBay (body : List Byte) (p : Part) : Part × Reply :=
  checked p (lengthIs 1 body) <|
  checked p p.configured <|
  match p.fm.bay? (fieldAt body 0) with
  | none => (p, .plain .noSuch 1)
  | some bay => (p, .done (bay.fields (fieldAt body 0)))

def execReadBay (number : Byte) (body : List Byte) (s : State) : Host.Outcome State Fault Refusal :=
  .next { s with part := s.part.takeRequest 0x0C number (replying (handleReadBay body)) }

/-! ### READ EDGES and READ CHANGES -/

/-- The two code bytes of an edge (R190). -/
def Edge.codes (x : Edge) : List Byte :=
  [byteOf (4 * x.kind.code + x.raw.code), byteOf (16 * x.settled.code + 4 * x.override.code + x.effective.code)]

/-- R190. -/
def handleReadEdges (body : List Byte) (p : Part) : Part × Reply :=
  checked p (lengthIs 3 body) <|
  checked p p.configured <|
  let first := field16At body 0
  let count := fieldAt body 2
  checked p (if (p.pmon.edge? first).isSome then none else some (.plain .noSuch 1)) <|
  checked p (if 1 ≤ count ∧ count ≤ 64 then none else some (.plain .outOfRange 2)) <|
  let shown := (p.pmon.edges.drop (first - 1)).take count
  (p, .done (bytes16 first ++ byteOf shown.length :: shown.flatMap Edge.codes))

def execReadEdges (number : Byte) (body : List Byte) (s : State) : Host.Outcome State Fault Refusal :=
  .next { s with part := s.part.takeRequest 0x0D number (replying (handleReadEdges body)) }

/-- R191: at most 90 ids from the start index on. -/
def handleReadChanges (body : List Byte) (p : Part) : Part × Reply :=
  checked p (lengthIs 2 body) <|
  checked p p.configured <|
  let start := field16At body 0
  let shown := (p.pmon.netChange.drop start).take 90
  (p, .done (bytes16 p.pmon.netChange.length ++ bytes16 start ++ byteOf shown.length :: shown.flatMap bytes16))

def execReadChanges (number : Byte) (body : List Byte) (s : State) : Host.Outcome State Fault Refusal :=
  .next { s with part := s.part.takeRequest 0x0E number (replying (handleReadChanges body)) }

end Sys2Proof.Machine
end

