-- ==== Sys2Proof/Machine/Frames.lean ====
section
/-! DEFINITION. Good frames by their KIND, the frame assembler, and the link's frame events (R166, R167, R171). -/

namespace Sys2Proof.Machine

/-- R167: the handling of a request of each kind; every kind below 0x80 that no request has is answered UNKNOWN_KIND. -/
def handlerOf (kind : Byte) (body : List Byte) : Part → Part × Option Reply :=
  match kind.toNat with
  | 0x01 => replying (handleIdentify body)
  | 0x02 => replying (handleSetupFloor body)
  | 0x03 => replying (handleSetRoles body)
  | 0x04 => replying (handleSetAuto body)
  | 0x05 => replying (handleSolve body)
  | 0x06 => replying (handleSetPacing body)
  | 0x07 => replying (handleHasten body)
  | 0x08 => replying (handleSetSupply body)
  | 0x09 => replying (handleSetZone body)
  | 0x0A => replying (handleReadZone body)
  | 0x0B => replying (handleListZones body)
  | 0x0C => replying (handleReadBay body)
  | 0x0D => replying (handleReadEdges body)
  | 0x0E => replying (handleReadChanges body)
  | 0x0F => replying (handleOverrideEdges body)
  | 0x10 => replying (handlePinKeypad body)
  | 0x11 => replying (handleUnpinKeypad body)
  | 0x12 => handlePassThrough body
  | 0x13 => replying (handleSetReports body)
  | 0x14 => replying (handleRestart body)
  | _ => fun p => (p, some (.plain .unknownKind 0))

/-- The assembler hunts again (R166). -/
def Part.hunt (p : Part) : Part := p.mapSlu fun u => { u with assembler := .hunting }

/-- R167: a good frame is taken by its KIND; one of a reply kind is discarded silently. -/
def Part.takeFrame (kind number : Byte) (body : List Byte) (p : Part) : Part :=
  if 0x80 ≤ kind.toNat then p.hunt else p.takeRequest kind number (handlerOf kind body)

/-- R166: all the bytes of a frame after SYNC have been collected. -/
def Part.completeFrame (bytes : List Byte) (p : Part) : Part :=
  match bytes with
  | _ :: kind :: number :: rest =>
    if byteSum bytes % 256 = 0 then p.takeFrame kind number rest.dropLast else p.hunt
  | _ => p.hunt

/-- R166: a byte arrives on SL_RXD, with whether its stop bit was low. -/
def Part.receiveByte (data : Byte) (stopLow : Bool) (p : Part) : Part :=
  match p.slu.assembler with
  | .hunting =>
    if data = 0xC3 ∧ stopLow = false then p.mapSlu fun u => { u with assembler := .collecting [] } else p
  | .collecting bytes =>
    if stopLow then p.hunt
    else
      match bytes with
      | [] =>
        if 2 ≤ data.toNat ∧ data.toNat ≤ 198 then p.mapSlu fun u => { u with assembler := .collecting [data] } else p.hunt
      | len :: rest =>
        let bytes := len :: rest ++ [data]
        if len.toNat + 2 ≤ bytes.length then p.completeFrame bytes
        else p.mapSlu fun u => { u with assembler := .collecting bytes }

/-- R166: a gap of more than 20 ms while collecting discards the frame. -/
def Part.gap (p : Part) : Part :=
  match p.slu.assembler with
  | .collecting _ => p.hunt
  | .hunting => p

/-- R167: a good request frame of unassigned kind. A term whose kind is assigned is taken by that kind (log entry 29). -/
def execUnknownKind (kind number : Byte) (body : List Byte) (s : State) : Host.Outcome State Fault Refusal :=
  .next { s with part := s.part.takeFrame kind number body }

/-- R166, R167: a discarded frame is dropped silently, whatever the cause, and the assembler hunts. -/
def execFrameDiscard (_cause : DiscardCause) (s : State) : Host.Outcome State Fault Refusal :=
  .next { s with part := s.part.hunt }

def execFrameGap (s : State) : Host.Outcome State Fault Refusal := .next { s with part := s.part.gap }

def execFrameByteReceived (data : Byte) (stopLow : Bool) (s : State) : Host.Outcome State Fault Refusal :=
  .next { s with part := s.part.receiveByte data stopLow }

def execFrameSent (s : State) : Host.Outcome State Fault Refusal := .next { s with part := s.part.frameSent }

end Sys2Proof.Machine
end

