-- ==== Sys2Proof/Machine/Events.lean ====
section
/-! DEFINITION. The events of the cell bus, the timers and the ticks. The transmitter chooses at the end of each event that
can raise a report (R171). -/

namespace Sys2Proof.Machine

/-- Power-on or a low level on RSTN (00_scope.md "Restarts", R16, R39, R57, R85, R108, R128, R146, R162, R175). -/
def execColdRestart (s : State) : Host.Outcome State Fault Refusal := .next { s with part := s.part.coldRestart }

/-- R20. -/
def execCbRequestSent (s : State) : Host.Outcome State Fault Refusal := .next { s with part := s.part.openReception }

/-- R20, R38. -/
def execCbReplyCharacter (data : Byte) (mark stopLow : Bool) (s : State) : Host.Outcome State Fault Refusal :=
  .next { s with part := s.part.receiveCharacter ⟨data, mark, stopLow⟩ }

/-- R20, R21: the start window or the gap limit passes. -/
def execReceptionEnd (s : State) : Host.Outcome State Fault Refusal := .next { s with part := s.part.endReception }

/-- R29. -/
def execIdleHoldEnd (s : State) : Host.Outcome State Fault Refusal := .next { s with part := s.part.endHold }

/-- R50. -/
def execQuietTimerExpiry (s : State) : Host.Outcome State Fault Refusal := .next { s with part := s.part.quietExpiry }

/-- R78. -/
def execSolveCompletion (s : State) : Host.Outcome State Fault Refusal :=
  .next { s with part := s.part.completeSolve.choose }

/-- R118. -/
def execStepTimerExpiry (s : State) : Host.Outcome State Fault Refusal :=
  .next { s with part := s.part.stepExpiry.choose }

/-- R121. -/
def execDeadlineExpiry (s : State) : Host.Outcome State Fault Refusal :=
  .next { s with part := s.part.deadlineExpiry.choose }

/-- R131. -/
def execVacancyTimerExpiry (tag : Nat) (s : State) : Host.Outcome State Fault Refusal :=
  .next { s with part := (s.part.vacancyExpiry tag).choose }

/-- R137. -/
def execFadeTick (s : State) : Host.Outcome State Fault Refusal := .next { s with part := s.part.fadeTick }

/-- R150: the allocation interval timer expires and an allocation runs, which restarts it. -/
def execAllocationIntervalExpiry (s : State) : Host.Outcome State Fault Refusal :=
  .next { s with part :=
    if s.part.afa.timer.mayExpire s.part.fm.clock then s.part.allocate.choose else s.part }

/-- 00_scope.md section 0.4, R16: the floor clock counts one second, wrapping modulo 2^32. -/
def execFloorClockTick (s : State) : Host.Outcome State Fault Refusal :=
  .next { s with part := s.part.mapFm fun f => { f with clock := f.clock + 1 } }

end Sys2Proof.Machine
end

