-- ==== Sys2Proof/Machine/Dispatch.lean ====
section
/-! DEFINITION. The dispatch: one arm per command, each one direct call of its meaning. -/

namespace Sys2Proof.Machine

/-- A command's effect on everything but the queue. -/
def exec (i : Instr) (s : State) : Host.Outcome State Fault Refusal :=
  match i with
  | .coldRestart => Sys2Proof.Machine.execColdRestart s
  | .identify number body => Sys2Proof.Machine.execIdentify number body s
  | .setupFloor number body => Sys2Proof.Machine.execSetupFloor number body s
  | .setRoles number body => Sys2Proof.Machine.execSetRoles number body s
  | .setAuto number body => Sys2Proof.Machine.execSetAuto number body s
  | .solve number body => Sys2Proof.Machine.execSolve number body s
  | .setPacing number body => Sys2Proof.Machine.execSetPacing number body s
  | .hasten number body => Sys2Proof.Machine.execHasten number body s
  | .setSupply number body => Sys2Proof.Machine.execSetSupply number body s
  | .setZone number body => Sys2Proof.Machine.execSetZone number body s
  | .readZone number body => Sys2Proof.Machine.execReadZone number body s
  | .listZones number body => Sys2Proof.Machine.execListZones number body s
  | .readBay number body => Sys2Proof.Machine.execReadBay number body s
  | .readEdges number body => Sys2Proof.Machine.execReadEdges number body s
  | .readChanges number body => Sys2Proof.Machine.execReadChanges number body s
  | .overrideEdges number body => Sys2Proof.Machine.execOverrideEdges number body s
  | .pinKeypad number body => Sys2Proof.Machine.execPinKeypad number body s
  | .unpinKeypad number body => Sys2Proof.Machine.execUnpinKeypad number body s
  | .passThrough number body => Sys2Proof.Machine.execPassThrough number body s
  | .setReports number body => Sys2Proof.Machine.execSetReports number body s
  | .restart number body => Sys2Proof.Machine.execRestart number body s
  | .unknownKind kind number body => Sys2Proof.Machine.execUnknownKind kind number body s
  | .frameDiscard cause => Sys2Proof.Machine.execFrameDiscard cause s
  | .frameGap => Sys2Proof.Machine.execFrameGap s
  | .frameSent => Sys2Proof.Machine.execFrameSent s
  | .receptionEnd => Sys2Proof.Machine.execReceptionEnd s
  | .idleHoldEnd => Sys2Proof.Machine.execIdleHoldEnd s
  | .quietTimerExpiry => Sys2Proof.Machine.execQuietTimerExpiry s
  | .solveCompletion => Sys2Proof.Machine.execSolveCompletion s
  | .stepTimerExpiry => Sys2Proof.Machine.execStepTimerExpiry s
  | .deadlineExpiry => Sys2Proof.Machine.execDeadlineExpiry s
  | .vacancyTimerExpiry tag => Sys2Proof.Machine.execVacancyTimerExpiry tag s
  | .fadeTick => Sys2Proof.Machine.execFadeTick s
  | .allocationIntervalExpiry => Sys2Proof.Machine.execAllocationIntervalExpiry s
  | .floorClockTick => Sys2Proof.Machine.execFloorClockTick s
  | .frameByteReceived data stopLow => Sys2Proof.Machine.execFrameByteReceived data stopLow s
  | .cbRequestSent => Sys2Proof.Machine.execCbRequestSent s
  | .cbReplyCharacter data mark stopLow => Sys2Proof.Machine.execCbReplyCharacter data mark stopLow s

end Sys2Proof.Machine
end

