-- ==== Sys2Proof/Safety.lean ====
section
/-! DEFINITION. The words that the statements are written in: what a reply says, what a command leaves alone, which replies
are valid, and the conditions that every step keeps. -/

namespace Sys2Proof.Machine

/-! ### The supervisory link -/

/-- Nothing outside the link changed, and the queue of commands stands. -/
def OnlyLink (s t : State) : Prop := t = { s with part := { s.part with slu := t.part.slu } }

/-- R165, R168 to R170: the request of this kind and number is in flight and its reply is in the reply slot, carrying
`kind + 0x80`, the number, the status, the detail and the fields; the assembler hunts. -/
def Answers (kind number : Byte) (status : Status) (detail : Nat) (fields : List Byte) (t : State) : Prop :=
  t.part.slu.assembler = .hunting ∧ t.part.slu.inFlight = some ⟨kind, number⟩
    ∧ t.part.slu.replySlot = some ⟨kind + 0x80, number, status.code :: byteOf detail :: fields⟩

/-- R171: a reply has become ready and nothing else has happened on the link: an idle transmitter sends it, after an OVERLAP
reply that waited first; a busy one goes on, and an OVERLAP reply that waits is marked as the first ready (log entry 25). The
queue, the lost flag, the mask and an owed restart stand. -/
def LinkKeeps (u u' : Slu) : Prop :=
  u'.queue = u.queue ∧ u'.lost = u.lost ∧ u'.mask = u.mask ∧ u'.restartOwed = u.restartOwed ∧
    match u.tx, u.overlapSlot with
    | .sending source f, o => u'.tx = .sending source f ∧ u'.overlapSlot = o ∧ u'.overlapFirst = o.isSome
    | .idle, none => some u'.tx = u'.replySlot.map (Transmitter.sending .reply) ∧ u'.overlapSlot = none
    | .idle, some o => u'.tx = .sending .overlap o ∧ u'.overlapSlot = none

/-- A request answered with nothing changed outside the link. -/
def AnswersOnly (kind number : Byte) (status : Status) (detail : Nat) (fields : List Byte) (s t : State) : Prop :=
  OnlyLink s t ∧ Answers kind number status detail fields t ∧ LinkKeeps s.part.slu t.part.slu

/-- The state with another assembler. -/
def withAssembler (s : State) (a : Assembler) : State :=
  { s with part := { s.part with slu := { s.part.slu with assembler := a } } }

/-- The bytes of a frame received one by one. -/
def feed : List Byte → State → Host.Outcome State Fault Refusal
  | [], s => .next s
  | b :: bs, s =>
    match exec (.frameByteReceived b false) s with
    | .next t => feed bs t
    | .fault f => .fault f
    | .refused r => .refused r

/-- Whether the mask enables the report code `code`. -/
def Enabled (u : Slu) (code : Nat) : Prop := u.mask.getD (code - 1) false = true

/-- R172: a report of this code finds its code enabled and room in the queue, and the transmitter is busy, so that the record
is still queued when the event ends. -/
def Reportable (u : Slu) (code : Nat) : Prop := Enabled u code ∧ u.queue.length < 16 ∧ u.tx ≠ .idle

/-! ### The cold values (R16, R39, R57, R85, R108, R128, R162, R175) -/

def ColdBlocks (p : Part) : Prop :=
  p.slu = ⟨.hunting, none, none, none, none, false, .idle, [], List.replicate 11 true, false⟩
    ∧ p.cbm = ⟨0, 0, [], 0, 0, none, .quiet⟩
    ∧ p.fm = ⟨.unconfigured, none, 0, [], 24, 0, 0, false, []⟩
    ∧ p.pmon = ⟨[], none, [], .clean, .stopped, false, true, 60, false⟩
    ∧ p.rsq = ⟨.idle, false, none, none⟩
    ∧ p.zt = ⟨List.replicate 64 none, 1, []⟩
    ∧ p.cut = ⟨[], .step, 2, 1800, .stopped, .stopped, none⟩
    ∧ p.afa = ⟨none, 30, .stopped⟩

/-! ### Setup -/

/-- R8: the values that an accepted SETUP FLOOR carries; `core b` says whether the bitmap marks bay `b`. -/
def SetupValid (g : Grid) (core : Nat → Bool) : Prop :=
  (2 ≤ g.cols ∧ g.cols ≤ 16) ∧ (2 ≤ g.rows ∧ g.rows ≤ 12)
    ∧ (∀ b, g.cols * g.rows < b → b ≤ 192 → core b = false)
    ∧ (∃ b, 1 ≤ b ∧ b ≤ g.cols * g.rows ∧ core b = false)
    ∧ (5 ≤ g.v ∧ g.v ≤ 40) ∧ (g.v + 10 ≤ g.qmax ∧ g.qmax ≤ 250) ∧ (1 ≤ g.sr ∧ g.sr ≤ 8)

/-- R7: the floor and sequencer states in which a SETUP FLOOR is considered. -/
def SetupConsidered (s : State) : Prop := s.part.fm.state = .unconfigured ∨ s.part.rsq.seq = .idle

/-- R11: the next round to complete ends the survey. -/
def SurveyEndsNext (p : Part) : Prop := p.fm.state = .survey ∧ p.fm.surveyOver = false ∧ p.fm.sr + 3 ≤ p.fm.surveyRounds + 1

/-! ### Replies on the cell bus -/

/-- Every character has mark 0 and its stop bit high. -/
def AllClean (chars : List RxChar) : Prop := ∀ c ∈ chars, c.mark = false ∧ c.stopLow = false

/-- R18: the bay number and every character sum to a multiple of 256. -/
def SumHolds (bay : Nat) (chars : List RxChar) : Prop := (bay + (chars.map fun c => c.data.toNat).sum) % 256 = 0

/-- R21, case 5: a valid reply of `want` characters, the first being `first` where that is given. -/
def ValidReply (bay want : Nat) (first : Option Byte) (chars : List RxChar) : Prop :=
  AllClean chars ∧ chars.length = want ∧ 0 < want ∧ SumHolds bay chars
    ∧ ∀ b, first = some b → chars.head?.map RxChar.data = some b

/-- R21, cases 1 to 4 in their order: a failed reply and its cause. -/
def FailedReply (bay want : Nat) (first : Option Byte) (chars : List RxChar) (cause : FailureCause) : Prop :=
  (chars = [] ∧ cause = .noReply)
    ∨ (chars ≠ [] ∧ (¬ AllClean chars ∨ want < chars.length) ∧ cause = .framing)
    ∨ (chars ≠ [] ∧ AllClean chars ∧ chars.length < want ∧ cause = .short)
    ∨ (chars ≠ [] ∧ AllClean chars ∧ chars.length = want
        ∧ (¬ SumHolds bay chars ∨ ∃ b, first = some b ∧ chars.head?.map RxChar.data ≠ some b) ∧ cause = .check)

/-- The data of character `i` of a reply, counting from 0. -/
def dataAt (chars : List RxChar) (i : Nat) : Byte := (chars.map RxChar.data).getD i 0

/-- A POLL of a bay, or a DRIVE of it, with the characters its reply has and the first one a drive reply must have. -/
inductive PollOrDrive (b : Nat) : Transaction → Nat → Option Byte → Prop where
  | poll : PollOrDrive b (.poll b) 6 none
  | drive (pair : Pair) : PollOrDrive b (.drive b pair) 2 (some 0x3C)

/-! ### The queue of reports -/

/-- R172: where every one of these reports is enabled and the queue has room for them all, and the transmitter is busy, they
are queued in order, stamped, and no other is. -/
def Queued (rs : List Report) (s t : Part) : Prop :=
  s.slu.tx ≠ .idle → (∀ r ∈ rs, Enabled s.slu r.code) → s.slu.queue.length + rs.length ≤ 16 →
    t.slu.queue = s.slu.queue ++ rs.map fun r => ⟨r, s.fm.clock⟩

/-- The same, where other reports may follow them. -/
def QueuedFirst (rs : List Report) (s t : Part) : Prop :=
  s.slu.tx ≠ .idle → (∀ r ∈ rs, Enabled s.slu r.code) → s.slu.queue.length + rs.length ≤ 16 →
    t.slu.queue.take (s.slu.queue.length + rs.length) = s.slu.queue ++ rs.map fun r => ⟨r, s.fm.clock⟩

/-! ### Requests that are refused -/

/-- R177, step 1, with the length that each kind's rule gives: whether a request's body has a wrong form, and the detail that
BAD_FORM then carries. -/
def formFault : Instr → Option Nat
  | .identify _ body => if body.length = 0 then none else some 0
  | .setupFloor _ body => if body.length = 29 then none else some 0
  | .setRoles _ body =>
    if 2 ≤ body.length ∧ (body.getD 1 0).toNat ≤ 32 ∧ body.length = (body.getD 1 0).toNat + 2 then none else some 2
  | .setAuto _ body => if body.length = 3 then none else some 0
  | .solve _ body => if body.length = 0 then none else some 0
  | .setPacing _ body => if body.length = 4 then none else some 0
  | .hasten _ body => if body.length = 0 then none else some 0
  | .setSupply _ body => if body.length = 4 then none else some 0
  | .setZone _ body => if body.length = 12 then none else some 0
  | .readZone _ body => if body.length = 1 then none else some 0
  | .listZones _ body => if body.length = 0 then none else some 0
  | .readBay _ body => if body.length = 1 then none else some 0
  | .readEdges _ body => if body.length = 3 then none else some 0
  | .readChanges _ body => if body.length = 2 then none else some 0
  | .overrideEdges _ body =>
    if 1 ≤ (body.getD 0 0).toNat ∧ (body.getD 0 0).toNat ≤ 48 ∧ body.length = 3 * (body.getD 0 0).toNat + 1 then none
    else some 1
  | .pinKeypad _ body => if body.length = 2 then none else some 0
  | .unpinKeypad _ body => if body.length = 1 then none else some 0
  | .passThrough _ body => if 2 ≤ body.length ∧ body.length ≤ 13 then none else some 0
  | .setReports _ body => if body.length = 11 then none else some 0
  | .restart _ body => if body.length = 1 then none else some 0
  | _ => none

/-- R177's table: the kinds that are not taken while the floor is UNCONFIGURED and are refused with NOT_READY. -/
def floorKinds : List Byte := [0x03, 0x05, 0x08, 0x09, 0x0A, 0x0B, 0x0C, 0x0D, 0x0E, 0x0F, 0x10, 0x11, 0x12]

/-! ### The allocation -/

/-- R152: the usable temperatures of a zone's members: those of the members whose health is OK, whose poll inputs are present
with a temperature byte other than 255 and the fault flag clear. -/
def usableTemps (p : Part) (tag : Nat) : List Nat :=
  p.fm.nodes.filterMap fun x =>
    match x.2.inputs with
    | some i => if x.2.tag = tag ∧ x.2.health = .ok ∧ i.temp ≠ 255 ∧ i.fault = false then some i.temp else none
    | none => none

/-- R152, R153: a zone as an allocation leaves its temperature and heat call: the mean, rounded half up, of its members'
usable temperatures, or the value held where no member gives one, compared with the heat setpoint. -/
def climateOf (p : Part) (z : Zone) : Zone :=
  let temps := usableTemps p z.tag
  let tz := if temps.length = 0 then z.tz else some ((temps.sum + temps.length / 2) / temps.length)
  { z with tz := tz, heatCall := tz.any fun t => decide (t < z.settings.heatSetpoint) }

/-- The used zones with a member, in ascending tag order (R151). -/
def mannedZones (p : Part) : List Zone := (p.zt.tags.filterMap p.zt.zone?).filter fun z => 0 < z.members

/-- R154: each manned zone's line: its member count n, its excess n × x and its demand n × (v + x). -/
def airRows (p : Part) : List AirRow :=
  (mannedZones p).map fun z =>
    let x := match (climateOf p z).tz with
      | none => 0
      | some t => min (z.settings.gain * (t - z.settings.coolSetpoint) / 4) (p.fm.qmax - p.fm.v)
    ⟨z.tag, z.members, z.members * x, z.members * (p.fm.v + x)⟩

/-- R153: the HEAT_CALL reports of an allocation: one for each manned zone whose heat call changes, in ascending tag order. -/
def heatCalls (p : Part) : List Report :=
  (mannedZones p).filterMap fun z =>
    let c := climateOf p z
    if c.heatCall = z.heatCall then none else some (.heatCall z.tag c.heatCall c.tz)

/-- R156: whether a zone's share of the spare budget is rounded down, `total` being the total excess S. -/
def roundedDown (spare total : Nat) (row : AirRow) : Bool := row.excess * spare % total != 0

/-- R155 to R157: the grant of each zone's tag from the spare budget A. Where A covers the total excess S, the demand.
Otherwise n × v + floor(X × A / S), and 1 more for the first r of the zones rounded down, in tag order, r being A less the
sum of the shares. -/
def grantsOf (v spare : Nat) (rows : List AirRow) : List (Nat × Nat) :=
  let total := (rows.map AirRow.excess).sum
  let r := spare - (rows.map fun row => row.excess * spare / total).sum
  (List.range rows.length).filterMap fun k => rows[k]?.map fun row => (row.tag,
    if total ≤ spare then row.demand
    else row.n * v + row.excess * spare / total
      + if roundedDown spare total row ∧ ((rows.take k).filter (roundedDown spare total)).length < r then 1 else 0)

/-- R159: the damper byte of a grant, floor((q × 250 + floor(QMAX / 2)) / QMAX). -/
def damperByteOf (p : Part) (q : Nat) : Byte := byteOf ((q * 250 + p.fm.qmax / 2) / p.fm.qmax)

/-- R151 to R159: what an allocation of the budget `f` does to the zones, the bays and the drive-pending set. The zone
grants are those of the spare budget F - NR × v (R155 to R157). Of a zone's n members each has floor(G / n), and the first
G mod n of them 1 more (R158). A bay whose damper byte changed is handed over, and owes a drive unless it was last sent the
pair that it now should show (R31, R159). -/
def Allocates (f : Nat) (s t : Part) : Prop :=
  let rows := airRows s
  let grants := grantsOf s.fm.v (f - s.fm.nr * s.fm.v) rows
  (∀ tag z, s.zt.zone? tag = some z → t.zt.zone? tag = some
      (match rows.find? fun row => row.tag == tag with
        | some row => { climateOf s z with demand := row.demand, grant := (lookupTag tag grants).getD 0 }
        | none => { z with demand := 0, grant := 0 }))
    ∧ (∀ tag, s.zt.zone? tag = none → t.zt.zone? tag = none) ∧ t.zt.nextTag = s.zt.nextTag ∧ t.zt.pins = s.zt.pins
    ∧ t.fm = { s.fm with bays := t.fm.bays }
    ∧ (∀ b r, s.fm.node? b = some r → t.fm.node? b = some
        (match rows.find? (fun row => row.tag == r.tag), lookupTag r.tag grants with
          | some row, some grant =>
            { r with q := grant / row.n + if (s.fm.membersOf r.tag).idxOf b < grant % row.n then 1 else 0 }
          | _, _ => r))
    ∧ t.cbm = { s.cbm with drivePending := t.cbm.drivePending }
    ∧ ∀ b, b ∈ t.cbm.drivePending ↔ b ∈ s.cbm.drivePending ∨ ∃ r r', s.fm.node? b = some r ∧ t.fm.node? b = some r'
        ∧ damperByteOf s r'.q ≠ damperByteOf s r.q
        ∧ ∀ l sent, r'.level = some l → r.lastSent = some sent →
            sent ≠ ⟨byteOf ((l * 250 + 500) / 1000), damperByteOf s r'.q⟩

/-! ### The cutover -/

/-- R101: a zone's anchor, its lowest-numbered member. -/
def anchorOf (f : FloorModel) (tag : Nat) : Option Nat := (f.membersOf tag).head?

/-- R90, R100: whether a zone is freed when it loses a member. -/
def freedByLeaving (z : Zone) : Bool := z.life == .retiring && z.members - 1 == 0

/-- The PIN_DROPPED reports of the freeing of a zone, in bay order (R107). -/
def pinsDropped (p : Part) (tag : Nat) : List Report :=
  (p.zt.pins.filter fun x => x.tag == tag).map fun x => .pinDropped x.bay x.tag

/-- R90, R100, R101, R107, R114, steps 2 to 5: bay `b` has moved from its zone `old` to `new`. The old zone has a member and
an outgoing bay less, or is freed with the pins that name it; the new zone has a member more and an incoming bay less, and
from BORN becomes LIVE and OCCUPIED with a full timer; both anchors are the lowest members; the bay counts the move and takes
its new zone's target; nothing else of the zones and bays changes. -/
def BayMoves (b : Nat) (r : BayRec) (old new : Zone) (s t : Part) : Prop :=
  let arrived : Zone := if new.life = .born then
      { new with life := .live, occupancy := .occupied, vacancy := .running s.fm.clock new.settings.vacancyDelay }
    else new
  let target := if new.manualOff then 0
    else if arrived.occupancy = .occupied then new.settings.occupiedLevel else new.settings.standbyLevel
  t.fm = { s.fm with bays := t.fm.bays }
    ∧ t.fm.node? b = some { r with tag := new.tag, nextTag := none, moves := min 65535 (r.moves + 1), target := some target }
    ∧ (∀ b', b' ≠ b → t.fm.node? b' = s.fm.node? b')
    ∧ t.zt.zone? old.tag = (if freedByLeaving old then none else some
        { old with members := old.members - 1, outgoing := old.outgoing - 1, anchor := anchorOf t.fm old.tag })
    ∧ t.zt.zone? new.tag = some
        { arrived with members := new.members + 1, incoming := new.incoming - 1, anchor := anchorOf t.fm new.tag }
    ∧ (∀ tag, tag ≠ old.tag → tag ≠ new.tag → t.zt.zone? tag = s.zt.zone? tag)
    ∧ t.zt.nextTag = s.zt.nextTag
    ∧ t.zt.pins = if freedByLeaving old then s.zt.pins.filter fun x => x.tag != old.tag else s.zt.pins

/-- R113, R123: what the deadline of a cutover may be once its limit has been moved: untouched while stopped or passed; else
passed if the second in which it now falls has gone by, running if that second has not come, and one of the two within it
(log entry 7). -/
def MovedDeadline (now : Clock) (run : Option RunRecord) (limit : Nat) : Deadline → Deadline → Prop
  | .stopped, d => d = .stopped
  | .passed, d => d = .passed
  | .running _, d =>
    match run with
    | none => d = .running limit
    | some r =>
      let counted := (now - r.start).toNat
      (counted < limit → d = .running limit) ∧ (limit < counted → d = .passed)
        ∧ (counted = limit → d = .running limit ∨ d = .passed)

/-- What every cutover leaves when it is over (R126): an empty list, no timer, no run record. -/
def Cut.over (c : Cut) : Cut := { c with list := [], stepTimer := .stopped, deadline := .stopped, run := none }

/-- The bays of the cutover list that are SILENT, and those that are not. -/
def silentOf (p : Part) : List Nat := p.cut.list.filter fun b => (p.fm.node? b).any fun r => r.health == .silent
def answeringOf (p : Part) : List Nat := p.cut.list.filter fun b => !(p.fm.node? b).any fun r => r.health == .silent

/-! ### The commit -/

/-- R87: the tag given is the first from the counter on, 250 followed by 1, that no used slot holds. -/
def FirstFreeTag (used : List Nat) (counter tag : Nat) : Prop :=
  ∃ k, k < 250 ∧ tag = (counter - 1 + k) % 250 + 1 ∧ tag ∉ used ∧ ∀ j, j < k → (counter - 1 + j) % 250 + 1 ∈ used

/-- R80, R87: tags given one after another, and the counter after them. -/
def TagsGiven : List Nat → Nat → List Nat → Nat → Prop
  | _, counter, [], after => after = counter
  | used, counter, tag :: tags, after => FirstFreeTag used counter tag ∧ TagsGiven (tag :: used) (tag % 250 + 1) tags after

/-- R77: the planned tag of a bay: the tag its component continues, the tag given to its admitted component, or 0. -/
def plannedBy (plan : Plan) (tags : List Nat) (b : Nat) : Nat :=
  match plan.kept.find? fun k => decide (b ∈ k.1.bays) with
  | some k => k.2
  | none => (((plan.admitted.map Prod.fst).zip tags).find? fun a => decide (b ∈ a.1.bays)).elim 0 Prod.snd

/-- R77: the moving bays of a plan, ascending. -/
def moversBy (plan : Plan) (tags : List Nat) (p : Part) : List Nat :=
  (p.fm.nodes.filter fun x => plannedBy plan tags x.1 ≠ x.2.tag).map Prod.fst

/-- R79, step 2: whether a commit frees a zone: it retires and has no member. -/
def freedAtCommit (plan : Plan) (z : Zone) : Bool := decide (z.tag ∈ plan.retiring) && z.members == 0

/-- R79, steps 1 to 3, R80, R86, R87, R91, R93, R94, R97, R99: the bays and the zone table after a commit in whose event no
bay cuts over. -/
def CommitWritesZones (plan : Plan) (tags : List Nat) (s t : Part) : Prop :=
  let planned := plannedBy plan tags
  (∀ b r, s.fm.node? b = some r → t.fm.node? b = some
      { r with nextTag := if planned b = r.tag then none else some (planned b), folded := plan.isFolded b })
    ∧ (∀ z ∈ s.zt.zones, t.zt.zone? z.tag = if freedAtCommit plan z then none else some
        { z with
          parent := none
          life := if z.tag ∈ plan.retiring then .retiring else z.life
          incoming := (s.fm.nodes.filter fun x => planned x.1 ≠ x.2.tag ∧ planned x.1 = z.tag).length
          outgoing := (s.fm.nodes.filter fun x => planned x.1 ≠ x.2.tag ∧ x.2.tag = z.tag).length
          foldedBays := if z.tag = 0 then plan.overflowBays else z.foldedBays })
    ∧ (∀ (k : Nat) (c : Component) (parent tag : Nat), plan.admitted[k]? = some (c, parent) → tags[k]? = some tag →
        ∃ z, s.zt.zone? parent = some z ∧ t.zt.zone? tag = some
          { tag := tag, life := .born, parent := some parent, members := 0, incoming := c.bays.length, outgoing := 0
            anchor := none, settings := z.settings, occupancy := .occupied, vacancy := .stopped, manualOff := false, tz := none
            heatCall := false, demand := 0, grant := 0, foldedBays := 0 })
    ∧ (∀ tag, s.zt.zone? tag = none → tag ∉ tags → t.zt.zone? tag = none)
    ∧ (∀ (n : Nat) (z : Zone), s.zt.slots[n]? = some (some z) → freedAtCommit plan z = false →
        ∃ z' : Zone, t.zt.slots[n]? = some (some z') ∧ z'.tag = z.tag)
    ∧ (∀ (k n tag : Nat), ((List.range' 1 63).filter fun n => s.zt.slots[n]? == some none)[k]? = some n → tags[k]? = some tag →
        ∃ z' : Zone, t.zt.slots[n]? = some (some z') ∧ z'.tag = tag)
    ∧ t.zt.pins = s.zt.pins.filter fun x => !(s.zt.zone? x.tag).any (freedAtCommit plan)

/-- R82: the reports of an accepted completion, in order. -/
def commitReports (plan : Plan) (result : SolveResult) : List Report :=
  .solveDone result :: if 0 < plan.overflowBays then [.overflow plan.overflowBays] else []

/-! ### Conditions that every step keeps -/

/-- A pass-through waits in its slot, or is on the bus and will be answered (R37, R38). -/
def PassPending (c : Cbm) : Prop :=
  c.passSlot ≠ none ∨ (∃ b body, c.bus = .sending (.pass b body) false)
    ∨ ∃ b body chars, c.bus = .receiving (.pass b body) false chars

/-- The link's records agree with one another (R168, R170 to R172): at most sixteen records queued, eleven enables; a reply
slot or an owed restart only with a request in flight; a reply being sent is the one in the slot; a pass-through that waits is
in flight without a reply; and the transmitter is idle only when nothing waits. -/
def LinkInv (p : Part) : Prop :=
  p.slu.queue.length ≤ 16 ∧ p.slu.mask.length = 11
    ∧ (p.slu.inFlight = none → p.slu.replySlot = none ∧ p.slu.restartOwed = none)
    ∧ (∀ f, p.slu.tx = .sending .reply f → p.slu.replySlot = some f)
    ∧ (PassPending p.cbm → p.slu.inFlight ≠ none ∧ p.slu.replySlot = none)
    ∧ (p.slu.tx = .idle → p.slu.replySlot = none ∧ p.slu.overlapSlot = none ∧ p.slu.queue = [])

/-- The ranges of the parameters that requests write (R4, R54, R112, R147). -/
def ParameterRanges (p : Part) : Prop :=
  (2 ≤ p.fm.rl ∧ p.fm.rl ≤ 96) ∧ (5 ≤ p.pmon.qt ∧ p.pmon.qt ≤ 600) ∧ (1 ≤ p.cut.interval ∧ p.cut.interval ≤ 60)
    ∧ (60 ≤ p.cut.limit ∧ p.cut.limit ≤ 7200) ∧ (10 ≤ p.afa.ai ∧ p.afa.ai ≤ 300)
    ∧ p.cbm.driveRun ≤ 4 ∧ p.cbm.roundNumber < 65536

/-- R92: the ranges of a zone's settings, and the two relations among them. -/
def SettingsValid (s : Settings) : Prop :=
  s.occupiedLevel ≤ 1000 ∧ s.standbyLevel ≤ s.occupiedLevel ∧ (30 ≤ s.vacancyDelay ∧ s.vacancyDelay ≤ 7200)
    ∧ (40 ≤ s.heatSetpoint ∧ s.heatSetpoint ≤ 120) ∧ (s.heatSetpoint + 4 ≤ s.coolSetpoint ∧ s.coolSetpoint ≤ 128)
    ∧ s.gain ≤ 40 ∧ (10 ≤ s.fadeRate ∧ s.fadeRate ≤ 1000)

/-- R86, R87, R92, R104, R129: sixty-four slots, the next-tag counter in 1..250, no tag above 250, every used slot's settings
valid, at most sixteen pins, and every level and target at most 1000. -/
def ZonesValid (p : Part) : Prop :=
  p.zt.slots.length = 64 ∧ (1 ≤ p.zt.nextTag ∧ p.zt.nextTag ≤ 250)
    ∧ (∀ z ∈ p.zt.zones, z.tag ≤ 250 ∧ SettingsValid z.settings) ∧ p.zt.pins.length ≤ 16
    ∧ ∀ b r, p.fm.node? b = some r → (∀ l, r.level = some l → l ≤ 1000) ∧ (∀ g, r.target = some g → g ≤ 1000)

/-- R3, R42, R190: a FIXED edge reads as it was set up, and a SENSED edge's effective state is its override, or its settled
state where it has none. -/
def EdgesValid (p : Part) : Prop :=
  ∀ x ∈ p.pmon.edges,
    (x.kind = .fixed → x = ⟨.fixed, .unknown, .walled, none, .none, .walled⟩)
      ∧ (x.kind = .sensed →
          x.effective = match x.override with
            | .forceWall => .walled
            | .forceOpen => .opened
            | .none => x.settled)

/-- R65, R86 to R89, R98, R110, R111: the zone table, the bays' tags and the cutover list agree. Slot 0 holds zone 0, LIVE,
while a floor is configured, and there are no bays before. Tags of used slots are distinct. A member count is the number of
bays with the tag. A bay's tag names a LIVE or RETIRING zone, a next tag a LIVE or BORN one that is not the bay's own. A BORN
zone awaits a bay, and a RETIRING one has members, all of which leave. The cutover list is the ascending list of the bays that
have a next tag, and is empty unless the sequencer is CUTTING, which it is only while the floor is RUNNING. -/
def ZoneLaws (p : Part) : Prop :=
  (p.fm.state = .unconfigured → p.fm.bays = [])
    ∧ (p.fm.state ≠ .unconfigured → ∃ z ∈ p.zt.slots.head?.join, z.tag = 0 ∧ z.life = .live)
    ∧ p.zt.zones.Pairwise (fun y z => y.tag ≠ z.tag)
    ∧ (∀ z ∈ p.zt.zones, z.members = (p.fm.membersOf z.tag).length)
    ∧ (∀ x ∈ p.fm.nodes, ∃ z ∈ p.zt.zones, z.tag = x.2.tag ∧ z.life ≠ .born)
    ∧ (∀ x ∈ p.fm.nodes, ∀ n ∈ x.2.nextTag, n ≠ x.2.tag ∧ ∃ z ∈ p.zt.zones, z.tag = n ∧ z.life ≠ .retiring)
    ∧ (∀ z ∈ p.zt.zones, z.life = .born → ∃ x ∈ p.fm.nodes, x.2.nextTag = some z.tag)
    ∧ (∀ z ∈ p.zt.zones, z.life = .retiring →
        0 < z.members ∧ ∀ x ∈ p.fm.nodes, x.2.tag = z.tag → x.2.nextTag.isSome = true)
    ∧ p.cut.list = (p.fm.nodes.filter fun x => x.2.nextTag.isSome).map Prod.fst ∧ p.cut.list.Pairwise (· < ·)
    ∧ (p.rsq.seq ≠ .cutting → p.cut.list = []) ∧ (p.rsq.seq = .cutting → p.fm.state = .running)

/-- R47, R48, R55, R64: the net change set is the ascending list of the edges whose effective state differs from the baseline,
and is empty without one; there is a baseline only while the floor is RUNNING; and while a solve runs its snapshot holds every
effective state until a change sets the changed-since-snapshot flag, and is an initial one exactly during the survey. -/
def NetChangeLaws (p : Part) : Prop :=
  (p.fm.state ≠ .running → p.pmon.baseline = none) ∧ (p.pmon.baseline = none → p.pmon.netChange = [])
    ∧ (∀ base ∈ p.pmon.baseline, p.pmon.netChange = (List.range' 1 p.pmon.edges.length).filter fun e =>
        (p.pmon.edge? e).any fun x => x.effective != base.getD (e - 1) .unknown)
    ∧ ∀ snap ∈ p.rsq.snapshot, p.rsq.seq = .solving → p.fm.state ≠ .unconfigured
        ∧ (snap.initial = true ↔ p.fm.state = .survey)
        ∧ (p.pmon.changed = false → snap.edges = p.pmon.edges.map Edge.effective)

/-- R31: the drive-pending set is ascending, so without duplicates, and every member is a ROOMABLE bay. -/
def PendingLaws (p : Part) : Prop :=
  p.cbm.drivePending.Pairwise (· < ·) ∧ ∀ b ∈ p.cbm.drivePending, (p.fm.node? b).isSome = true

/-- R5, R147, R150, R160, R162: while a floor is configured the budget F lies in M..FMAX, every ROOMABLE bay's grant in v..QMAX, and
the grants sum to at most F; in the survey every grant is v; the allocation timer runs only while the floor is RUNNING. -/
def SupplyLaws (p : Part) : Prop :=
  (p.fm.state = .unconfigured → p.afa.supply = none)
    ∧ (p.fm.state ≠ .unconfigured → p.fm.v + 10 ≤ p.fm.qmax ∧ p.fm.nr = p.fm.nodes.length
        ∧ ∃ f ∈ p.afa.supply, p.fm.nr * p.fm.v ≤ f ∧ f ≤ p.fm.nr * p.fm.qmax ∧ (p.fm.nodes.map fun x => x.2.q).sum ≤ f
          ∧ ∀ x ∈ p.fm.nodes, p.fm.v ≤ x.2.q ∧ x.2.q ≤ p.fm.qmax)
    ∧ (p.fm.state = .survey → ∀ x ∈ p.fm.nodes, x.2.q = p.fm.v)
    ∧ (p.fm.state ≠ .running → p.afa.timer = .stopped)

end Sys2Proof.Machine
end

