-- ==== Sys2Proof/WellFormed.lean ====
section
/-! DEFINITION. Which command terms stand for an event that can come: checks on the operands alone. -/

namespace Sys2Proof

/-- The longest BODY a frame can carry: LEN is at most 198 and counts KIND and NUMBER too (R165). -/
def maxBody : Nat := 196

/-- A body that a good frame can carry (R165). -/
def bodyFits (body : List Byte) : Bool := decide (body.length ≤ maxBody)

/-- KIND values of requests that are assigned to no request: 0x00 and 0x15..0x7F (R167). -/
def unassignedKind (kind : Byte) : Bool := kind == 0 || (decide (0x15 ≤ kind.toNat) && decide (kind.toNat ≤ 0x7F))

/-- The kind, number and body of the request frame whose arrival a command is; none for every other event (R167). -/
def Instr.request? : Instr → Option (Byte × Byte × List Byte)
  | .identify n b => some (0x01, n, b)
  | .setupFloor n b => some (0x02, n, b)
  | .setRoles n b => some (0x03, n, b)
  | .setAuto n b => some (0x04, n, b)
  | .solve n b => some (0x05, n, b)
  | .setPacing n b => some (0x06, n, b)
  | .hasten n b => some (0x07, n, b)
  | .setSupply n b => some (0x08, n, b)
  | .setZone n b => some (0x09, n, b)
  | .readZone n b => some (0x0A, n, b)
  | .listZones n b => some (0x0B, n, b)
  | .readBay n b => some (0x0C, n, b)
  | .readEdges n b => some (0x0D, n, b)
  | .readChanges n b => some (0x0E, n, b)
  | .overrideEdges n b => some (0x0F, n, b)
  | .pinKeypad n b => some (0x10, n, b)
  | .unpinKeypad n b => some (0x11, n, b)
  | .passThrough n b => some (0x12, n, b)
  | .setReports n b => some (0x13, n, b)
  | .restart n b => some (0x14, n, b)
  | .unknownKind k n b => some (k, n, b)
  | .coldRestart | .frameDiscard _ | .frameGap | .frameSent | .receptionEnd | .idleHoldEnd | .quietTimerExpiry
  | .solveCompletion | .stepTimerExpiry | .deadlineExpiry | .vacancyTimerExpiry _ | .fadeTick
  | .allocationIntervalExpiry | .floorClockTick | .frameByteReceived _ _ | .cbRequestSent
  | .cbReplyCharacter _ _ _ => none

/-- A well-formed command: a request's body fits a frame, an UNKNOWN_KIND's kind is unassigned, and a vacancy timer is
that of a tag 0..250 (R91). -/
def Instr.wellFormed : Instr → Bool
  | .unknownKind k _ b => unassignedKind k && bodyFits b
  | .vacancyTimerExpiry tag => decide (tag ≤ 250)
  | i => (i.request?.map fun r => bodyFits r.2.2).getD true

end Sys2Proof
end

