-- ==== Sys2Proof/Certificates/Slice0/Obligations.lean ====
section
/-! DEFINITION. The statements for the provers, over exec and step, by the rules of spec/. -/

open Sys2Proof Sys2Proof.Machine

/-! ### The queue, reset and the link -/

/-- A step takes the command at the front of the queue and runs it on the queue's rest. On an empty queue the block idles: the
model's choice (log entry 1). -/
def Obligations.StepRunsFrontCommand : Prop :=
  (∀ (c : Instr) (rest : List Instr) (s : State), s.pending = c :: rest → step s = exec c { s with pending := rest })
    ∧ ∀ s : State, s.pending = [] → step s = .next s

/-- Every command, in every state, answers a next state with the queue as it was. That no command faults and none is refused is
log entry 24, and that a cold restart too leaves the queue is log entry 19. -/
def Obligations.EveryCommandAnswersNext : Prop := ∀ (c : Instr) (s : State), ∃ p : Part, exec c s = .next { s with part := p }

/-- R16, R39, R57, R85, R108, R128, R162, R175: what a cold restart leaves, and what reset holds. The survey round count, the
survey-ended mark and the model's own fields are at the values of log entry 20, and the queue kept by a cold restart is log
entry 19: the model's choices. -/
def Obligations.ColdRestartLeavesColdValues : Prop :=
  (∀ s : State, ∃ t, exec .coldRestart s = .next t ∧ ColdBlocks t.part ∧ t.pending = s.pending)
    ∧ ColdBlocks State.reset.part ∧ State.reset.pending = []

/-- R166: what each received byte, gap and discard does to the assembler, and that nothing else changes. -/
def Obligations.AssemblerHuntsAndCollects : Prop :=
  (∀ (data : Byte) (low : Bool) (s : State), s.part.slu.assembler = .hunting →
    exec (.frameByteReceived data low) s = .next (if data = 0xC3 ∧ low = false then withAssembler s (.collecting []) else s))
  ∧ (∀ (data : Byte) (got : List Byte) (s : State), s.part.slu.assembler = .collecting got →
    exec (.frameByteReceived data true) s = .next (withAssembler s .hunting))
  ∧ (∀ (data : Byte) (s : State), s.part.slu.assembler = .collecting [] →
    exec (.frameByteReceived data false) s =
      .next (withAssembler s (if 2 ≤ data.toNat ∧ data.toNat ≤ 198 then .collecting [data] else .hunting)))
  ∧ (∀ (data len : Byte) (got : List Byte) (s : State), s.part.slu.assembler = .collecting (len :: got) →
    got.length < len.toNat →
    exec (.frameByteReceived data false) s = .next (withAssembler s (.collecting (len :: got ++ [data]))))
  ∧ (∀ (data len kind number : Byte) (body : List Byte) (s : State),
    s.part.slu.assembler = .collecting (len :: kind :: number :: body) → body.length + 2 = len.toNat →
    ((len :: kind :: number :: body ++ [data]).map BitVec.toNat).sum % 256 ≠ 0 ∨ 0x80 ≤ kind.toNat →
    exec (.frameByteReceived data false) s = .next (withAssembler s .hunting))
  ∧ (∀ s : State, exec .frameGap s = .next (withAssembler s .hunting))
  ∧ (∀ (cause : DiscardCause) (s : State), exec (.frameDiscard cause) s = .next (withAssembler s .hunting))

/-- R165 to R167: the bytes of a good frame, received one by one, do exactly what its request command does. That a request
command stands for the event of its CHECK byte is log entry 3. -/
def Obligations.FrameBytesRunRequest : Prop :=
  ∀ (c : Instr) (kind number : Byte) (body : List Byte) (s : State), c.request? = some (kind, number, body) →
    c.wellFormed = true → s.part.slu.assembler = .hunting →
    feed (Frame.bytes ⟨kind, number, body⟩) s = exec c s

/-- R167: a request of unknown kind is answered UNKNOWN_KIND and changes nothing outside the link. -/
def Obligations.UnknownKindIsAnswered : Prop :=
  ∀ (kind number : Byte) (body : List Byte) (s : State), kind = 0 ∨ (0x15 ≤ kind.toNat ∧ kind.toNat ≤ 0x7F) →
    s.part.slu.inFlight = none →
    ∃ t, exec (.unknownKind kind number body) s = .next t ∧ AnswersOnly kind number .unknownKind 0 [] s t

/-- R168: a request that arrives while another is in flight is not executed; it is answered OVERLAP, or dropped while the
overlap slot is full. The mark of which reply became ready first (log entry 25) is the OVERLAP reply's unless a reply waits. -/
def Obligations.RequestInFlightMeansOverlap : Prop :=
  ∀ (c : Instr) (kind number : Byte) (body : List Byte) (s : State) (q : InFlight),
    c.request? = some (kind, number, body) → c.wellFormed = true → s.part.slu.inFlight = some q →
    (s.part.slu.tx = .idle → s.part.slu.replySlot = none ∧ s.part.slu.overlapSlot = none) →
    ∃ t, exec c s = .next t ∧ OnlyLink s t ∧ t.part.slu.assembler = .hunting ∧ t.part.slu.inFlight = some q
      ∧ t.part.slu.replySlot = s.part.slu.replySlot ∧ t.part.slu.queue = s.part.slu.queue
      ∧ t.part.slu.lost = s.part.slu.lost ∧ t.part.slu.mask = s.part.slu.mask
      ∧ t.part.slu.restartOwed = s.part.slu.restartOwed
      ∧ match s.part.slu.tx, s.part.slu.overlapSlot with
        | .idle, _ => t.part.slu.tx = .sending .overlap ⟨kind + 0x80, number, [0x0B, 0]⟩ ∧ t.part.slu.overlapSlot = none
        | .sending source f, none =>
          t.part.slu.tx = .sending source f ∧ t.part.slu.overlapSlot = some ⟨kind + 0x80, number, [0x0B, 0]⟩
            ∧ t.part.slu.overlapFirst = s.part.slu.replySlot.isNone
        | .sending source f, some o => t.part.slu.tx = .sending source f ∧ t.part.slu.overlapSlot = some o

/-- R169, R177 to R196: a request whose reply's status is none of DONE, ACCEPTED, DEFERRED and PARTIAL changed nothing outside the
link, and its reply carries status and detail alone. A body of wrong form is refused with BAD_FORM, whatever the states; and a kind
that needs a floor, its body's form right, is refused with NOT_READY while there is none. The detail of BAD_FORM for a SET ROLES or
OVERRIDE EDGES body too short to hold its count field (formFault) is log entry 15. -/
def Obligations.RefusedRequestChangesNothing : Prop :=
  (∀ (c : Instr) (kind number status : Byte) (body rest : List Byte) (s t : State),
    c.request? = some (kind, number, body) → s.part.slu.inFlight = none → s.part.slu.replySlot = none →
    exec c s = .next t → t.part.slu.replySlot = some ⟨kind + 0x80, number, status :: rest⟩ →
    status ≠ 0x00 → status ≠ 0x01 → status ≠ 0x02 → status ≠ 0x0A →
    OnlyLink s t ∧ LinkKeeps s.part.slu t.part.slu ∧ rest.length = 1)
  ∧ (∀ (c : Instr) (kind number : Byte) (body : List Byte) (detail : Nat) (s : State),
    c.request? = some (kind, number, body) → formFault c = some detail → s.part.slu.inFlight = none →
    ∃ t, exec c s = .next t ∧ AnswersOnly kind number .badForm detail [] s t)
  ∧ ∀ (c : Instr) (kind number : Byte) (body : List Byte) (s : State),
    c.request? = some (kind, number, body) → c.wellFormed = true → formFault c = none → kind ∈ floorKinds →
    s.part.fm.state = .unconfigured → s.part.slu.inFlight = none →
    ∃ t, exec c s = .next t ∧ AnswersOnly kind number .notReady 0 [] s t

/-- R171, R173: the transmitter's choice at the end of a report or of an OVERLAP reply. Of two waiting replies, which became
ready first is read from the mark overlapFirst (log entry 25). -/
def Obligations.TransmitterChoosesNextFrame : Prop :=
  ∀ (source : TxSource) (f : Frame) (s : State), s.part.slu.tx = .sending source f → source ≠ .reply →
    ∃ t, exec .frameSent s = .next t ∧ OnlyLink s t ∧ t.part.slu.replySlot = s.part.slu.replySlot
      ∧ t.part.slu.inFlight = s.part.slu.inFlight ∧ t.part.slu.mask = s.part.slu.mask
      ∧ match s.part.slu.replySlot, s.part.slu.overlapSlot, s.part.slu.overlapFirst, s.part.slu.queue with
        | some r, none, _, q =>
          t.part.slu.tx = .sending .reply r ∧ t.part.slu.queue = q ∧ t.part.slu.lost = s.part.slu.lost
        | some r, some o, false, q =>
          t.part.slu.tx = .sending .reply r ∧ t.part.slu.overlapSlot = some o ∧ t.part.slu.queue = q
            ∧ t.part.slu.lost = s.part.slu.lost
        | some _, some o, true, q =>
          t.part.slu.tx = .sending .overlap o ∧ t.part.slu.overlapSlot = none ∧ t.part.slu.queue = q
            ∧ t.part.slu.lost = s.part.slu.lost
        | none, some o, _, q =>
          t.part.slu.tx = .sending .overlap o ∧ t.part.slu.overlapSlot = none ∧ t.part.slu.queue = q
            ∧ t.part.slu.lost = s.part.slu.lost
        | none, none, _, r :: rest =>
          t.part.slu.tx = .sending .report ⟨0xC0, 0,
              byteOf r.report.code :: byteOfFlag s.part.slu.lost :: (bytes32 r.stamp ++ r.report.fields)⟩
            ∧ t.part.slu.queue = rest ∧ t.part.slu.lost = false
        | none, none, _, [] =>
          t.part.slu.tx = .idle ∧ t.part.slu.queue = [] ∧ t.part.slu.lost = s.part.slu.lost

/-- R170, R171: when a reply's last byte has been sent its request is no longer in flight and its slot is empty, and the
transmitter goes on with what waits. A cold restart that the reply answered takes effect in the same event. -/
def Obligations.ReplySentEndsRequest : Prop :=
  (∀ (f : Frame) (s : State), s.part.slu.tx = .sending .reply f → s.part.slu.restartOwed = none →
    ∃ t, exec .frameSent s = .next t ∧ OnlyLink s t ∧ t.part.slu.inFlight = none ∧ t.part.slu.replySlot = none
      ∧ t.part.slu.assembler = s.part.slu.assembler ∧ t.part.slu.mask = s.part.slu.mask
      ∧ match s.part.slu.overlapSlot, s.part.slu.queue with
        | some o, q =>
          t.part.slu.tx = .sending .overlap o ∧ t.part.slu.overlapSlot = none ∧ t.part.slu.queue = q
            ∧ t.part.slu.lost = s.part.slu.lost
        | none, r :: rest =>
          t.part.slu.tx = .sending .report (r.frame s.part.slu.lost) ∧ t.part.slu.queue = rest ∧ t.part.slu.lost = false
        | none, [] => t.part.slu.tx = .idle ∧ t.part.slu.queue = [] ∧ t.part.slu.lost = s.part.slu.lost)
  ∧ (∀ (f : Frame) (s : State), s.part.slu.tx = .sending .reply f → s.part.slu.restartOwed = some .cold →
    ∃ t, exec .frameSent s = .next t ∧ ColdBlocks t.part ∧ t.pending = s.pending)

/-- R10, R15, R16, R40, R58, R63, R84, R109, R127, R145, R163, R176: what a warm restart keeps and what it makes new. Before the
floor is RUNNING no target is written (log entry 13), and an idle hold is voided as a transaction is (log entry 10). -/
def Obligations.WarmRestartKeepsSetupAndClearsWork : Prop :=
  ∀ (f : Frame) (s : State), s.part.slu.tx = .sending .reply f → s.part.slu.restartOwed = some .warm →
    let live : Prop := s.part.fm.state = .running
    let discards : Prop := live ∧ s.part.rsq.seq ≠ .idle
    let settled : Prop := live ∧ (s.part.rsq.seq ≠ .idle ∨ s.part.pmon.owed = true)
    let waits : Prop := live ∧ s.part.rsq.seq = .idle ∧ s.part.pmon.owed = false ∧ s.part.pmon.netChange ≠ []
    let starts : Prop := settled ∧ s.part.pmon.auto = true
    ∃ t, exec .frameSent s = .next t ∧ t.pending = s.pending
      ∧ (t.part.slu.inFlight = none ∧ t.part.slu.replySlot = none ∧ t.part.slu.queue = [] ∧ t.part.slu.lost = false
        ∧ t.part.slu.mask = s.part.slu.mask ∧ t.part.slu.assembler = s.part.slu.assembler ∧ t.part.slu.restartOwed = none
        ∧ match s.part.slu.overlapSlot with
          | some o => t.part.slu.tx = .sending .overlap o
          | none => t.part.slu.tx = .idle)
      ∧ (t.part.fm.state = s.part.fm.state ∧ t.part.fm.grid = s.part.fm.grid ∧ t.part.fm.nr = s.part.fm.nr
        ∧ t.part.fm.spine = s.part.fm.spine ∧ t.part.fm.rl = s.part.fm.rl ∧ t.part.fm.clock = s.part.fm.clock
        ∧ (s.part.fm.state = .survey → t.part.fm.surveyRounds = 0 ∧ t.part.fm.surveyOver = false))
      ∧ (∀ b r, s.part.fm.node? b = some r → ∃ target, t.part.fm.node? b = some
            { r with health := .ok, failures := 0, keyCounter := none, inputs := none, nextTag := none, target := target }
          ∧ (live → ∀ z, t.part.zt.zone? r.tag = some z → target = some z.settings.occupiedLevel)
          ∧ (¬ live → target = r.target))
      ∧ (t.part.cbm.pollCursor = 0 ∧ t.part.cbm.roundNumber = 0 ∧ t.part.cbm.driveCursor = 0 ∧ t.part.cbm.driveRun = 0
        ∧ t.part.cbm.passSlot = none ∧ (∀ b, b ∈ t.part.cbm.drivePending ↔ (s.part.fm.node? b).isSome = true)
        ∧ t.part.cbm.bus = match s.part.cbm.bus with
          | .quiet => .quiet
          | .hold _ => .hold true
          | .sending x _ => .sending x true
          | .receiving x _ chars => .receiving x true chars)
      ∧ (t.part.pmon.baseline = s.part.pmon.baseline ∧ t.part.pmon.netChange = s.part.pmon.netChange
        ∧ t.part.pmon.auto = s.part.pmon.auto ∧ t.part.pmon.qt = s.part.pmon.qt ∧ t.part.pmon.changed = false
        ∧ (discards → t.part.pmon.owed = true) ∧ (¬ discards → t.part.pmon.owed = s.part.pmon.owed)
        ∧ (settled → t.part.pmon.monitor = .settled)
        ∧ (waits → t.part.pmon.monitor = .unsettled ∧ t.part.pmon.quiet = .running s.part.fm.clock s.part.pmon.qt)
        ∧ (¬ waits → t.part.pmon.quiet = .stopped) ∧ (¬ settled → ¬ waits → t.part.pmon.monitor = .clean)
        ∧ t.part.pmon.edges.length = s.part.pmon.edges.length
        ∧ ∀ e x, s.part.pmon.edge? e = some x → t.part.pmon.edge? e = some (if x.kind = .sensed then
            { x with
              candidate := none
              raw := match x.settled with
                | .walled => .present
                | .opened => .absent
                | .unknown => .unknown }
            else x))
      ∧ (t.part.rsq.requested = false ∧ t.part.rsq.result = s.part.rsq.result
        ∧ (starts → t.part.rsq.seq = .solving ∧ t.part.rsq.snapshot = some ⟨t.part.pmon.edges.map Edge.effective, false⟩)
        ∧ (¬ starts → t.part.rsq.seq = .idle ∧ t.part.rsq.snapshot = none))
      ∧ (t.part.zt.nextTag = s.part.zt.nextTag
        ∧ (∀ tag z, s.part.zt.zone? tag = some z → z.life ≠ .born → t.part.zt.zone? tag = some
            { z with
              life := .live, incoming := 0, outgoing := 0, occupancy := .occupied, manualOff := false
              vacancy := if s.part.fm.state = .survey then .held else .running s.part.fm.clock z.settings.vacancyDelay })
        ∧ (∀ z ∈ t.part.zt.zones, z.life = .live ∧ z.incoming = 0 ∧ z.outgoing = 0 ∧ z.occupancy = .occupied
            ∧ z.manualOff = false)
        ∧ (∀ tag, (∃ z ∈ t.part.zt.zones, z.tag = tag) ↔ ∃ z ∈ s.part.zt.zones, z.tag = tag ∧ z.life ≠ .born)
        ∧ ∀ x, x ∈ t.part.zt.pins ↔ x ∈ s.part.zt.pins ∧ ∀ z ∈ s.part.zt.zones, z.life = .born → z.tag ≠ x.tag)
      ∧ t.part.cut = s.part.cut.over
      ∧ t.part.afa = { s.part.afa with
          timer := if s.part.fm.state = .running then .running s.part.fm.clock s.part.afa.ai else s.part.afa.timer }

/-- R172: what a report event does: dropped under the mask, discarded with the lost flag at a full queue, queued otherwise. -/
def Obligations.ReportIsDroppedLostOrQueued : Prop :=
  ∀ (r : Report) (p : Part),
    (¬ Enabled p.slu r.code → p.raise r = p)
    ∧ (Enabled p.slu r.code → 16 ≤ p.slu.queue.length → p.raise r = { p with slu := { p.slu with lost := true } })
    ∧ (Enabled p.slu r.code → p.slu.queue.length < 16 →
        p.raise r = { p with slu := { p.slu with queue := p.slu.queue ++ [⟨r, p.fm.clock⟩] } })

/-! ### Identity, setup, reports and restart requests -/

/-- R178: IDENTIFY's reply, and that nothing changes. -/
def Obligations.IdentifyReportsAndChangesNothing : Prop :=
  ∀ (number : Byte) (s : State), s.part.slu.inFlight = none →
    ∃ t fields, exec (.identify number []) s = .next t ∧ AnswersOnly 0x01 number .done 0 fields s t ∧ fields.length = 27
      ∧ fields = [0x2B, 0x61, 0x00, 0xC0, 0x01, s.part.fm.state.code, s.part.rsq.seq.code, s.part.pmon.monitor.code]
        ++ bytes32 s.part.fm.clock
        ++ [byteOf s.part.fm.nr, byteOf ((s.part.fm.grid.map Grid.cols).getD 0), byteOf ((s.part.fm.grid.map Grid.rows).getD 0)]
        ++ match s.part.rsq.result with
          | none => List.replicate 12 0
          | some r => 1 :: bytes32 r.time ++ [byteOf r.found, byteOf r.floorComponents, byteOf r.continued,
              byteOf r.bornAdmitted, byteOf r.overflowBays, byteOf r.retired, byteOf r.toMove]

/-- R9, R10, R15, R179: what an accepted SETUP FLOOR establishes in every block, and its reply. That an idle hold it meets is
voided, as a transaction on the wire is, is log entry 10. -/
def Obligations.SetupFloorBuildsNewFloor : Prop :=
  ∀ (number : Byte) (body : List Byte) (s : State) (first : Nat), s.part.slu.inFlight = none → body.length = 29 →
    SetupConsidered s → s.part.cbm.passSlot = none →
    let dflt : Nat → Nat → Nat := fun x d => if x = 0 then d else x
    let g : Grid := ⟨(body.getD 0 0).toNat, (body.getD 1 0).toNat, dflt (body.getD 26 0).toNat 10,
      dflt (body.getD 27 0).toNat 60, dflt (body.getD 28 0).toNat 2⟩
    let core : Nat → Bool := fun b => coreBit ((body.drop 2).take 24) b
    SetupValid g core → 1 ≤ first → first ≤ g.cols * g.rows → core first = false → (∀ b, 1 ≤ b → b < first → core b = true) →
    let nr := ((List.range' 1 (g.cols * g.rows)).filter fun b => !core b).length
    let ne := (g.cols - 1) * g.rows + g.cols * (g.rows - 1)
    let zone : Zone :=
      { tag := 0, life := .live, parent := none, members := nr, incoming := 0, outgoing := 0, anchor := some first
        settings := ⟨800, 200, 900, 80, 96, 10, 200⟩, occupancy := .occupied, vacancy := .held, manualOff := false
        tz := none, heatCall := false, demand := nr * g.v, grant := nr * g.v, foldedBays := 0 }
    ∃ t, exec (.setupFloor number body) s = .next t
      ∧ Answers 0x02 number .done 0 ([byteOf nr] ++ bytes16 ne ++ [byteOf g.v, byteOf g.qmax, byteOf g.sr]) t
      ∧ LinkKeeps s.part.slu t.part.slu ∧ t.pending = s.pending
      ∧ (t.part.fm = ⟨.survey, some g, nr, [], 24, s.part.fm.clock, 0, false, t.part.fm.bays⟩
        ∧ t.part.fm.bays.length = g.cols * g.rows
        ∧ ∀ b, 1 ≤ b → b ≤ g.cols * g.rows → t.part.fm.bay? b = some (if core b then .core else .roomable
            { health := .ok, failures := 0, lastFailure := none, keyCounter := none, lastSent := none, inputs := none
              tag := 0, nextTag := none, folded := false, moves := 0, level := none, target := none, q := g.v }))
      ∧ (t.part.pmon =
          { edges := t.part.pmon.edges, baseline := none, netChange := [], monitor := .clean, quiet := .stopped
            owed := false, auto := s.part.pmon.auto, qt := s.part.pmon.qt, changed := false }
        ∧ t.part.pmon.edges.length = ne
        ∧ ∀ e, 1 ≤ e → e ≤ ne → t.part.pmon.edge? e = some
            (if core (edgeBays g.cols g.rows e).1 || core (edgeBays g.cols g.rows e).2
              then ⟨.fixed, .unknown, .walled, none, .none, .walled⟩
              else ⟨.sensed, .unknown, .unknown, none, .none, .unknown⟩))
      ∧ t.part.rsq = { seq := .idle, requested := false, snapshot := none, result := s.part.rsq.result }
      ∧ t.part.zt = { slots := some zone :: List.replicate 63 none, nextTag := 1, pins := [] }
      ∧ t.part.cut = { s.part.cut with list := [], stepTimer := .stopped, deadline := .stopped, run := none }
      ∧ t.part.afa = { supply := some (nr * g.v), ai := s.part.afa.ai, timer := .stopped }
      ∧ t.part.cbm.roundNumber = 0 ∧ t.part.cbm.drivePending = [] ∧ t.part.cbm.driveCursor = 0 ∧ t.part.cbm.driveRun = 0
      ∧ t.part.cbm.passSlot = none
      ∧ match s.part.cbm.bus with
        | .quiet => t.part.cbm.bus = .sending (.poll first) false ∧ t.part.cbm.pollCursor = first
        | .hold _ => t.part.cbm.bus = .hold true ∧ t.part.cbm.pollCursor = 0
        | .sending x _ => t.part.cbm.bus = .sending x true ∧ t.part.cbm.pollCursor = 0
        | .receiving x _ chars => t.part.cbm.bus = .receiving x true chars ∧ t.part.cbm.pollCursor = 0

/-- R7, R8: when a SETUP FLOOR is refused: by its form, by the sequencer state, and then by its first failing field. -/
def Obligations.SetupFloorRefusals : Prop :=
  ∀ (number : Byte) (body : List Byte) (s : State), s.part.slu.inFlight = none →
    let dflt : Nat → Nat → Nat := fun x d => if x = 0 then d else x
    let cols := (body.getD 0 0).toNat
    let rows := (body.getD 1 0).toNat
    let core : Nat → Bool := fun b => coreBit ((body.drop 2).take 24) b
    let v := dflt (body.getD 26 0).toNat 10
    let qmax := dflt (body.getD 27 0).toNat 60
    let sr := dflt (body.getD 28 0).toNat 2
    let outOfRange : Nat → Prop := fun field =>
      ∃ t, exec (.setupFloor number body) s = .next t ∧ AnswersOnly 0x02 number .outOfRange field [] s t
    let colsOk := 2 ≤ cols ∧ cols ≤ 16
    let rowsOk := 2 ≤ rows ∧ rows ≤ 12
    let mapOk := (∀ b, cols * rows < b → b ≤ 192 → core b = false) ∧ ∃ b, 1 ≤ b ∧ b ≤ cols * rows ∧ core b = false
    let vOk := 5 ≤ v ∧ v ≤ 40
    let qmaxOk := v + 10 ≤ qmax ∧ qmax ≤ 250
    let srOk := 1 ≤ sr ∧ sr ≤ 8
    (body.length ≠ 29 → ∃ t, exec (.setupFloor number body) s = .next t ∧ AnswersOnly 0x02 number .badForm 0 [] s t)
    ∧ (body.length = 29 → ¬ SetupConsidered s →
        ∃ t, exec (.setupFloor number body) s = .next t ∧ AnswersOnly 0x02 number .busy 0 [] s t)
    ∧ (body.length = 29 → SetupConsidered s →
        (¬ colsOk → outOfRange 1) ∧ (colsOk → ¬ rowsOk → outOfRange 2) ∧ (colsOk → rowsOk → ¬ mapOk → outOfRange 3)
        ∧ (colsOk → rowsOk → mapOk → ¬ vOk → outOfRange 4) ∧ (colsOk → rowsOk → mapOk → vOk → ¬ qmaxOk → outOfRange 5)
        ∧ (colsOk → rowsOk → mapOk → vOk → qmaxOk → ¬ srOk → outOfRange 6))

/-- R4, R51, R180: when a SET ROLES of right form is refused: by the floor state, by the sequencer state, by its first entry that is
no ROOMABLE bay, then by RL. A taken one holds the spine bays ascending and once each, and RL; while the floor is RUNNING it sets
solve-owed and makes the monitor SETTLED, and with auto on and the sequencer IDLE a solve starts. -/
def Obligations.SetRolesReplacesRoles : Prop :=
  (∀ (number rl n : Byte) (bays : List Byte) (s : State), s.part.slu.inFlight = none → n.toNat = bays.length →
    bays.length ≤ 32 →
    let refused : Status → Nat → Prop := fun status detail => ∃ t, exec (.setRoles number (rl :: n :: bays)) s = .next t
      ∧ AnswersOnly 0x03 number status detail [] s t
    let good : Nat → Prop := fun i => (s.part.fm.node? (bays.getD i 0).toNat).isSome = true
    (s.part.fm.state = .unconfigured → refused .notReady 0)
    ∧ (s.part.fm.state ≠ .unconfigured → s.part.rsq.seq = .solving → refused .busy 0)
    ∧ (s.part.fm.state ≠ .unconfigured → s.part.rsq.seq ≠ .solving →
        (∀ i, i < bays.length → (∀ j, j < i → good j) → ¬ good i → refused .outOfRange (i + 1 + 0x80))
        ∧ ((∀ i, i < bays.length → good i) → rl.toNat < 2 ∨ 96 < rl.toNat → refused .outOfRange 1)))
  ∧ ∀ (number rl n : Byte) (bays : List Byte) (s : State), s.part.slu.inFlight = none → n.toNat = bays.length →
    bays.length ≤ 32 → s.part.fm.state ≠ .unconfigured → s.part.rsq.seq ≠ .solving →
    (∀ x ∈ bays, (s.part.fm.node? x.toNat).isSome = true) → 2 ≤ rl.toNat → rl.toNat ≤ 96 →
    ∃ t spine, exec (.setRoles number (rl :: n :: bays)) s = .next t
      ∧ Answers 0x03 number .done 0 ([rl, byteOf spine.length] ++ spine.map byteOf) t ∧ LinkKeeps s.part.slu t.part.slu
      ∧ spine.Pairwise (· < ·) ∧ (∀ b, b ∈ spine ↔ ∃ x ∈ bays, x.toNat = b)
      ∧ (s.part.fm.state = .survey →
          t = { s with part := { s.part with slu := t.part.slu, fm := { s.part.fm with rl := rl.toNat, spine := spine } } })
      ∧ (s.part.fm.state = .running →
          let starts : Bool := s.part.pmon.auto && s.part.rsq.seq == .idle
          t = { s with part := { s.part with
            slu := t.part.slu
            fm := { s.part.fm with rl := rl.toNat, spine := spine }
            pmon := { s.part.pmon with
              owed := true, quiet := .stopped, monitor := .settled, changed := if starts then false else s.part.pmon.changed }
            rsq := if starts then
                { s.part.rsq with seq := .solving, requested := false, snapshot := some ⟨s.part.pmon.edges.map Edge.effective, false⟩ }
              else s.part.rsq } })

/-- R195: SET REPORTS in every state: its form, its first bad field, and the mask it writes. -/
def Obligations.SetReportsWritesMask : Prop :=
  ∀ (number : Byte) (body : List Byte) (s : State), s.part.slu.inFlight = none →
    (body.length ≠ 11 → ∃ t, exec (.setReports number body) s = .next t ∧ AnswersOnly 0x13 number .badForm 0 [] s t)
    ∧ (∀ i, body.length = 11 → i < 11 → (∀ j, j < i → body.getD j 0 = 0 ∨ body.getD j 0 = 1) →
        body.getD i 0 ≠ 0 → body.getD i 0 ≠ 1 →
        ∃ t, exec (.setReports number body) s = .next t ∧ AnswersOnly 0x13 number .outOfRange (i + 1) [] s t)
    ∧ (body.length = 11 → (∀ x ∈ body, x = 0 ∨ x = 1) →
        ∃ t, exec (.setReports number body) s = .next t ∧ OnlyLink s t ∧ Answers 0x13 number .done 0 body t
          ∧ LinkKeeps { s.part.slu with mask := body.map fun x => decide (x = 1) } t.part.slu)

/-- R170, R196: RESTART is answered with the option echoed and nothing changed but the restart owed; another option is
refused. -/
def Obligations.RestartIsOwedUntilReplySent : Prop :=
  ∀ (number option : Byte) (s : State), s.part.slu.inFlight = none →
    (option = 1 → ∃ t, exec (.restart number [option]) s = .next t ∧ OnlyLink s t ∧ Answers 0x14 number .done 0 [1] t
      ∧ LinkKeeps { s.part.slu with restartOwed := some .warm } t.part.slu)
    ∧ (option = 2 → ∃ t, exec (.restart number [option]) s = .next t ∧ OnlyLink s t ∧ Answers 0x14 number .done 0 [2] t
      ∧ LinkKeeps { s.part.slu with restartOwed := some .cold } t.part.slu)
    ∧ (option ≠ 1 → option ≠ 2 →
      ∃ t, exec (.restart number [option]) s = .next t ∧ AnswersOnly 0x14 number .outOfRange 1 [] s t)

/-! ### Rezoning, pacing, supply and zone requests -/

/-- R54, R181: SET AUTO writes the auto flag and QT clamped to 5..600; switching auto on under a SETTLED monitor while the floor
is RUNNING and the sequencer IDLE starts a solve. -/
def Obligations.SetAutoWritesAutoAndQuietTime : Prop :=
  ∀ (number flag hi lo : Byte) (s : State), s.part.slu.inFlight = none →
    (flag ≠ 0 → flag ≠ 1 →
      ∃ t, exec (.setAuto number [flag, hi, lo]) s = .next t ∧ AnswersOnly 0x04 number .outOfRange 1 [] s t)
    ∧ (flag = 0 ∨ flag = 1 →
      let qt := max 5 (min 600 (hi.toNat * 256 + lo.toNat))
      let starts : Prop := s.part.pmon.auto = false ∧ flag = 1 ∧ s.part.fm.state = .running
        ∧ s.part.pmon.monitor = .settled ∧ s.part.rsq.seq = .idle
      ∃ t, exec (.setAuto number [flag, hi, lo]) s = .next t ∧ Answers 0x04 number .done 0 ([flag] ++ bytes16 qt) t
        ∧ LinkKeeps s.part.slu t.part.slu
        ∧ (¬ starts → t = { s with part := { s.part with
            slu := t.part.slu, pmon := { s.part.pmon with auto := decide (flag = 1), qt := qt } } })
        ∧ (starts → t = { s with part := { s.part with
            slu := t.part.slu
            pmon := { s.part.pmon with auto := true, qt := qt, changed := false }
            rsq := { s.part.rsq with seq := .solving, requested := false, snapshot := some ⟨s.part.pmon.edges.map Edge.effective, false⟩ } } }))

/-- R61, R64, R182: SOLVE in each floor and sequencer state. -/
def Obligations.SolveStartsOrIsDeferred : Prop :=
  ∀ (number : Byte) (s : State), s.part.slu.inFlight = none →
    (s.part.fm.state ≠ .running →
      ∃ t, exec (.solve number []) s = .next t ∧ AnswersOnly 0x05 number .notReady 0 [] s t)
    ∧ (s.part.fm.state = .running → s.part.rsq.seq = .idle →
      ∃ t, exec (.solve number []) s = .next t ∧ Answers 0x05 number .accepted 0 [] t ∧ LinkKeeps s.part.slu t.part.slu
        ∧ t = { s with part := { s.part with
            slu := t.part.slu
            pmon := { s.part.pmon with changed := false }
            rsq := { s.part.rsq with seq := .solving, requested := false, snapshot := some ⟨s.part.pmon.edges.map Edge.effective, false⟩ } } })
    ∧ (s.part.fm.state = .running → s.part.rsq.seq = .solving →
      ∃ t, exec (.solve number []) s = .next t ∧ AnswersOnly 0x05 number .busy 0 [] s t)
    ∧ (s.part.fm.state = .running → s.part.rsq.seq = .cutting →
      ∃ t, exec (.solve number []) s = .next t ∧ Answers 0x05 number .deferred 0 [] t ∧ LinkKeeps s.part.slu t.part.slu
        ∧ t = { s with part := { s.part with slu := t.part.slu, rsq := { s.part.rsq with requested := true } } })

/-- R122, R183: SET PACING while no cutover is in progress writes the mode, the interval clamped to 1..60 and the limit clamped to
60..7200, and nothing else. -/
def Obligations.SetPacingWritesParameters : Prop :=
  ∀ (number code interval hi lo : Byte) (s : State), s.part.slu.inFlight = none → s.part.rsq.seq ≠ .cutting →
    (2 < code.toNat → ∃ t, exec (.setPacing number [code, interval, hi, lo]) s = .next t
      ∧ AnswersOnly 0x06 number .outOfRange 1 [] s t)
    ∧ ∀ mode : Pacing, mode.code = code →
      let held := max 1 (min 60 interval.toNat)
      let limit := max 60 (min 7200 (hi.toNat * 256 + lo.toNat))
      ∃ t, exec (.setPacing number [code, interval, hi, lo]) s = .next t
        ∧ Answers 0x06 number .done 0 ([code, byteOf held] ++ bytes16 limit ++ [0]) t ∧ LinkKeeps s.part.slu t.part.slu
        ∧ t = { s with part := { s.part with
            slu := t.part.slu, cut := { s.part.cut with mode := mode, interval := held, limit := limit } } }

/-- R113, R116, R122, R123, R125, R126: SET PACING during a cutover. Another mode than 0, 1 or 2 is refused. The deadline is moved to
the new limit. BLOCK moves every remaining bay and ends the cutover with cause SWITCH. STEP moves none and starts the step timer
from the request. VACANT stops it, and moves every remaining bay where the deadline is passed, else the SILENT ones; the cutover
ends with cause SWITCH when none remains. -/
def Obligations.SetPacingActsOnCutover : Prop :=
  ∀ (number interval hi lo : Byte) (s : State), s.part.slu.inFlight = none → s.part.rsq.seq = .cutting →
    let held := max 1 (min 60 interval.toNat)
    let limit := max 60 (min 7200 (hi.toNat * 256 + lo.toNat))
    let moved : State → List Nat → Prop := fun t bs => ∀ b ∈ bs, ∀ r n, s.part.fm.node? b = some r → r.nextTag = some n →
      ∃ r', t.part.fm.node? b = some r' ∧ r'.tag = n ∧ r'.nextTag = none
    let switched : State → Prop := fun t => ∀ run, s.part.cut.run = some run → s.part.zt.pins = [] → Enabled s.part.slu 5 →
      s.part.slu.queue.length < 16 → s.part.cut.list = s.part.movingBays →
      t.part.slu.queue[s.part.slu.queue.length]? =
        some ⟨.cutoverDone run.listed (run.moved + s.part.cut.list.length) .switch (s.part.fm.clock - run.start),
          s.part.fm.clock⟩
    (∀ code : Byte, 2 < code.toNat → ∃ t, exec (.setPacing number [code, interval, hi, lo]) s = .next t
      ∧ AnswersOnly 0x06 number .outOfRange 1 [] s t)
    ∧ (∃ t, exec (.setPacing number [0, interval, hi, lo]) s = .next t
      ∧ Answers 0x06 number .done 0 ([0, byteOf held] ++ bytes16 limit ++ [byteOf s.part.cut.list.length]) t
      ∧ t.part.cut = ⟨[], .block, held, limit, .stopped, .stopped, none⟩
      ∧ t.part.rsq.seq ≠ .cutting ∧ moved t s.part.cut.list ∧ switched t)
    ∧ (∃ t, exec (.setPacing number [1, interval, hi, lo]) s = .next t
      ∧ Answers 0x06 number .done 0 ([1, byteOf held] ++ bytes16 limit ++ [0]) t
      ∧ t.part.cut = { s.part.cut with
          mode := .step, interval := held, limit := limit
          stepTimer := .running s.part.fm.clock held, deadline := t.part.cut.deadline }
      ∧ MovedDeadline s.part.fm.clock s.part.cut.run limit s.part.cut.deadline t.part.cut.deadline
      ∧ t.part.fm = s.part.fm ∧ t.part.zt = s.part.zt ∧ t.part.rsq = s.part.rsq ∧ t.part.pmon = s.part.pmon
      ∧ t.part.cbm = s.part.cbm ∧ t.part.afa = s.part.afa ∧ t.pending = s.pending)
    ∧ ∃ t deadline, exec (.setPacing number [2, interval, hi, lo]) s = .next t ∧ t.pending = s.pending
      ∧ MovedDeadline s.part.fm.clock s.part.cut.run limit s.part.cut.deadline deadline
      ∧ (deadline = .passed ∨ answeringOf s.part = [] →
          Answers 0x06 number .done 0 ([2, byteOf held] ++ bytes16 limit ++ [byteOf s.part.cut.list.length]) t
          ∧ t.part.cut = ⟨[], .vacant, held, limit, .stopped, .stopped, none⟩
          ∧ t.part.rsq.seq ≠ .cutting ∧ moved t s.part.cut.list ∧ switched t)
      ∧ (deadline ≠ .passed → answeringOf s.part ≠ [] →
          Answers 0x06 number .done 0 ([2, byteOf held] ++ bytes16 limit ++ [byteOf (silentOf s.part).length]) t
          ∧ t.part.cut = ⟨answeringOf s.part, .vacant, held, limit, .stopped, deadline, t.part.cut.run⟩
          ∧ (s.part.cut.list = s.part.movingBays →
              t.part.cut.run = s.part.cut.run.map fun x => { x with moved := x.moved + (silentOf s.part).length })
          ∧ moved t (silentOf s.part) ∧ (∀ b, b ∉ silentOf s.part → t.part.fm.node? b = s.part.fm.node? b)
          ∧ t.part.rsq = s.part.rsq ∧ t.part.pmon = s.part.pmon ∧ t.part.cbm = s.part.cbm ∧ t.part.afa = s.part.afa)

/-- R124 to R126, R184: HASTEN during a cutover moves every remaining listed bay to its next tag, ends the cutover, reports it and
leaves the other bays' tags and the pacing as they were; otherwise it is refused NOT_NOW. -/
def Obligations.HastenEndsCutover : Prop :=
  ∀ (number : Byte) (s : State), s.part.slu.inFlight = none →
    (s.part.rsq.seq ≠ .cutting →
      ∃ t, exec (.hasten number []) s = .next t ∧ AnswersOnly 0x07 number .notNow 0 [] s t)
    ∧ (s.part.rsq.seq = .cutting →
      ∃ t, exec (.hasten number []) s = .next t ∧ Answers 0x07 number .done 0 [byteOf s.part.cut.list.length] t
        ∧ t.part.cut = { s.part.cut with list := [], stepTimer := .stopped, deadline := .stopped, run := none }
        ∧ t.part.rsq.seq ≠ .cutting ∧ t.pending = s.pending ∧ t.part.pmon.baseline = s.part.pmon.baseline
        ∧ t.part.pmon.edges = s.part.pmon.edges
        ∧ (∀ b ∈ s.part.cut.list, ∀ r n, s.part.fm.node? b = some r → r.nextTag = some n →
            ∃ r', t.part.fm.node? b = some r' ∧ r'.tag = n ∧ r'.nextTag = none ∧ r'.moves = min 65535 (r.moves + 1))
        ∧ (∀ b, b ∉ s.part.cut.list → ∀ r, s.part.fm.node? b = some r →
            ∃ q, t.part.fm.node? b = some { r with q := q })
        ∧ ∀ run, s.part.cut.run = some run → s.part.zt.pins = [] → Enabled s.part.slu 5 → s.part.slu.queue.length < 16 →
            s.part.cut.list.Nodup →
            (∀ b ∈ s.part.cut.list, ∃ r, s.part.fm.node? b = some r ∧ r.nextTag.isSome = true) →
            t.part.slu.queue[s.part.slu.queue.length]? =
              some ⟨.cutoverDone run.listed (run.moved + s.part.cut.list.length) .hasten (s.part.fm.clock - run.start),
                s.part.fm.clock⟩)

/-- R148, R150 to R159, R185: SET SUPPLY is refused while there is no floor; otherwise it clamps and writes the budget and the interval,
and while the floor is RUNNING it also allocates the new budget, reports the heat calls that change and restarts the timer with the
new interval. -/
def Obligations.SetSupplyClampsAndAllocates : Prop :=
  (∀ (number fh fl ih il : Byte) (s : State), s.part.slu.inFlight = none → s.part.fm.state = .unconfigured →
    ∃ t, exec (.setSupply number [fh, fl, ih, il]) s = .next t ∧ AnswersOnly 0x08 number .notReady 0 [] s t)
  ∧ ∀ (number fh fl ih il : Byte) (s : State), s.part.slu.inFlight = none → s.part.fm.state ≠ .unconfigured →
    let m := s.part.fm.nr * (s.part.fm.grid.map Grid.v).getD 0
    let fmax := s.part.fm.nr * (s.part.fm.grid.map Grid.qmax).getD 0
    let f := max m (min fmax (fh.toNat * 256 + fl.toNat))
    let ai := max 10 (min 300 (ih.toNat * 256 + il.toNat))
    ∃ t, exec (.setSupply number [fh, fl, ih, il]) s = .next t
      ∧ Answers 0x08 number .done 0 (bytes16 f ++ bytes16 m ++ bytes16 fmax ++ bytes16 ai) t
      ∧ (s.part.fm.state = .survey → LinkKeeps s.part.slu t.part.slu ∧
          t = { s with part := { s.part with slu := t.part.slu, afa := { s.part.afa with supply := some f, ai := ai } } })
      ∧ (s.part.fm.state = .running →
          t.part.afa = { supply := some f, ai := ai, timer := .running s.part.fm.clock ai }
          ∧ t.part.rsq = s.part.rsq ∧ t.part.pmon = s.part.pmon ∧ t.part.cut = s.part.cut ∧ t.pending = s.pending
          ∧ (∀ b r, s.part.fm.node? b = some r → ∃ q, t.part.fm.node? b = some { r with q := q })
          ∧ Allocates f s.part t.part ∧ (s.part.zt.tags.Nodup → Queued (heatCalls s.part) s.part t.part))

/-- R92, R95, R135, R143, R186: SET ZONE is refused by its form, while there is no floor, and for a tag that no used slot holds;
otherwise it replaces the named zone's settings by the requested ones clamped in three steps, and recomputes the targets of the
zone's members while the floor is RUNNING. In the survey no target is written: log entry 13. -/
def Obligations.SetZoneClampsAndRetargets : Prop :=
  (∀ (number : Byte) (body : List Byte) (s : State), s.part.slu.inFlight = none → body.length ≠ 12 →
    ∃ t, exec (.setZone number body) s = .next t ∧ AnswersOnly 0x09 number .badForm 0 [] s t)
  ∧ (∀ (number : Byte) (body : List Byte) (s : State), s.part.slu.inFlight = none → body.length = 12 →
    (s.part.fm.state = .unconfigured →
      ∃ t, exec (.setZone number body) s = .next t ∧ AnswersOnly 0x09 number .notReady 0 [] s t)
    ∧ (s.part.fm.state ≠ .unconfigured → s.part.zt.zone? (body.getD 0 0).toNat = none →
      ∃ t, exec (.setZone number body) s = .next t ∧ AnswersOnly 0x09 number .noSuch 1 [] s t))
  ∧ ∀ (number tag oh ol sh sl vh vl heat cool gain fh fl : Byte) (z : Zone) (s : State), s.part.slu.inFlight = none →
    s.part.fm.state ≠ .unconfigured → s.part.zt.zone? tag.toNat = some z →
    let occupied := min 1000 (oh.toNat * 256 + ol.toNat)
    let standby := min occupied (sh.toNat * 256 + sl.toNat)
    let delay := max 30 (min 7200 (vh.toNat * 256 + vl.toNat))
    let heatC := max 40 (min 120 heat.toNat)
    let coolC := max (heatC + 4) (max 48 (min 128 cool.toNat))
    let gainC := min 40 gain.toNat
    let fade := max 10 (min 1000 (fh.toNat * 256 + fl.toNat))
    let z' : Zone := { z with settings := ⟨occupied, standby, delay, heatC, coolC, gainC, fade⟩ }
    let target := if z.manualOff then 0 else if z.occupancy = .occupied then occupied else standby
    ∃ t, exec (.setZone number [tag, oh, ol, sh, sl, vh, vl, heat, cool, gain, fh, fl]) s = .next t
      ∧ Answers 0x09 number .done 0 ([tag] ++ bytes16 occupied ++ bytes16 standby ++ bytes16 delay
          ++ [byteOf heatC, byteOf coolC, byteOf gainC] ++ bytes16 fade) t
      ∧ LinkKeeps s.part.slu t.part.slu
      ∧ t = { s with part := { s.part with slu := t.part.slu, zt := t.part.zt, fm := t.part.fm } }
      ∧ t.part.zt.nextTag = s.part.zt.nextTag ∧ t.part.zt.pins = s.part.zt.pins
      ∧ (∀ other, t.part.zt.zone? other = if other = tag.toNat then some z' else s.part.zt.zone? other)
      ∧ (s.part.fm.state = .survey → t.part.fm = s.part.fm)
      ∧ (s.part.fm.state = .running → ∀ b r, s.part.fm.node? b = some r →
          t.part.fm.node? b = some (if r.tag = tag.toNat then { r with target := some target } else r))

/-! ### Requests that read -/

/-- R103, R187: READ ZONE is refused while there is no floor and for a tag that no used slot holds. In its reply the whole seconds
remaining of a running vacancy timer are free within the second that the floor clock has not counted (log entry 6), and those of a
held one are the vacancy delay as it stands at the read (log entry 14); everything else is fixed, and nothing changes. -/
def Obligations.ReadZoneShowsRecord : Prop :=
  (∀ (number tag : Byte) (s : State), s.part.slu.inFlight = none →
    (s.part.fm.state = .unconfigured →
      ∃ t, exec (.readZone number [tag]) s = .next t ∧ AnswersOnly 0x0A number .notReady 0 [] s t)
    ∧ (s.part.fm.state ≠ .unconfigured → s.part.zt.zone? tag.toNat = none →
      ∃ t, exec (.readZone number [tag]) s = .next t ∧ AnswersOnly 0x0A number .noSuch 1 [] s t))
  ∧ ∀ (number tag : Byte) (z : Zone) (s : State), s.part.slu.inFlight = none → s.part.fm.state ≠ .unconfigured →
    s.part.zt.zone? tag.toNat = some z →
    let or255 : Option Nat → Byte := fun o => (o.map byteOf).getD 255
    let flag : Bool → Byte := fun b => if b then 1 else 0
    let pinned := (s.part.zt.pins.filter fun x => x.tag == tag.toNat).map Pin.bay
    ∃ t remaining, exec (.readZone number [tag]) s = .next t
      ∧ Answers 0x0A number .done 0
          ([tag, z.life.code, or255 z.parent, byteOf z.members, byteOf z.incoming, byteOf z.outgoing,
              (z.anchor.map byteOf).getD 0]
            ++ bytes16 z.settings.occupiedLevel ++ bytes16 z.settings.standbyLevel ++ bytes16 z.settings.vacancyDelay
            ++ [byteOf z.settings.heatSetpoint, byteOf z.settings.coolSetpoint, byteOf z.settings.gain]
            ++ bytes16 z.settings.fadeRate
            ++ [z.occupancy.code] ++ bytes16 remaining ++ [flag z.manualOff, or255 z.tz, flag z.heatCall]
            ++ bytes16 z.demand ++ bytes16 z.grant ++ [byteOf z.foldedBays, byteOf pinned.length] ++ pinned.map byteOf) t
      ∧ LinkKeeps s.part.slu t.part.slu
      ∧ t = { s with part := { s.part with slu := t.part.slu, fresh := t.part.fresh } }
      ∧ match z.vacancy with
        | .stopped => remaining = 0
        | .held => remaining = z.settings.vacancyDelay
        | .running since span =>
          let counted := (s.part.fm.clock - since).toNat
          remaining ≤ span ∧ span ≤ remaining + counted + 1 ∧ (remaining = 0 ∨ remaining + counted ≤ span + 1)

/-- R188: LIST ZONES is refused while there is no floor. Its reply has one entry of three bytes for each used slot in slot order, the
life state coded in them. That an entry carries no incoming count, which R110 speaks of, is log entry 32. -/
def Obligations.ListZonesCodesLifeState : Prop :=
  (∀ (number : Byte) (s : State), s.part.slu.inFlight = none → s.part.fm.state = .unconfigured →
    ∃ t, exec (.listZones number []) s = .next t ∧ AnswersOnly 0x0B number .notReady 0 [] s t)
  ∧ ∀ (number : Byte) (s : State), s.part.slu.inFlight = none → s.part.fm.state ≠ .unconfigured →
    let entry : Zone → List Byte := fun z =>
      if z.life = .retiring then [byteOf z.tag, byteOf (256 - z.members), byteOf (256 - z.anchor.getD 0)]
      else [byteOf z.tag, byteOf z.members, byteOf (z.anchor.getD 0)]
    ∃ t, exec (.listZones number []) s = .next t
      ∧ AnswersOnly 0x0B number .done 0
          (byteOf (s.part.zt.slots.filterMap id).length :: (s.part.zt.slots.filterMap id).flatMap entry) s t

/-- R189: READ BAY's reply for a ROOMABLE bay, a CORE bay and a number outside 1..N, and its refusal while there is no floor. -/
def Obligations.ReadBayShowsRecord : Prop :=
  (∀ (number b : Byte) (s : State), s.part.slu.inFlight = none → s.part.fm.state = .unconfigured →
    ∃ t, exec (.readBay number [b]) s = .next t ∧ AnswersOnly 0x0C number .notReady 0 [] s t)
  ∧ ∀ (number b : Byte) (s : State), s.part.slu.inFlight = none → s.part.fm.state ≠ .unconfigured →
    let or255 : Option Nat → Byte := fun o => (o.map byteOf).getD 255
    let orFFFF : Option Nat → List Byte := fun o => (o.map bytes16).getD [0xFF, 0xFF]
    let flag : Bool → Byte := fun x => if x then 1 else 0
    (s.part.fm.bay? b.toNat = none →
      ∃ t, exec (.readBay number [b]) s = .next t ∧ AnswersOnly 0x0C number .noSuch 1 [] s t)
    ∧ (s.part.fm.bay? b.toNat = some .core →
      ∃ t, exec (.readBay number [b]) s = .next t ∧ AnswersOnly 0x0C number .done 0
        [b, 1, 0, 0, 255, 255, 255, 0, 0, 255, 255, 255, 255, 255, 255, 0xFF, 0xFF, 0xFF, 0xFF, 0, 0, 0] s t)
    ∧ ∀ r, s.part.fm.bay? b.toNat = some (.roomable r) →
      ∃ t, exec (.readBay number [b]) s = .next t ∧ AnswersOnly 0x0C number .done 0
        ([b, 0, r.health.code, byteOf r.failures, (r.lastFailure.map FailureCause.code).getD 255, byteOf r.tag,
            or255 r.nextTag, flag r.folded]
          ++ (match r.inputs with
            | some i => [1, flag i.occupied, byteOf i.temp, flag i.fault]
            | none => [0, 255, 255, 255])
          ++ [or255 r.keyCounter, (r.lastSent.map Pair.level).getD 255, (r.lastSent.map Pair.damper).getD 255]
          ++ orFFFF r.level ++ orFFFF r.target ++ [byteOf r.q] ++ bytes16 r.moves) s t

/-- R190, R191: READ EDGES' reply and its refusals, with what a FIXED edge reads where the records hold as set up; and READ CHANGES'
reply: the total, the start index, the count returned, and at most 90 ids from the start index on. -/
def Obligations.ReadEdgesAndChangesShowPartitions : Prop :=
  (∀ (number hi lo count : Byte) (s : State), s.part.slu.inFlight = none → s.part.fm.state = .unconfigured →
    (∃ t, exec (.readEdges number [hi, lo, count]) s = .next t ∧ AnswersOnly 0x0D number .notReady 0 [] s t)
    ∧ ∃ t, exec (.readChanges number [hi, lo]) s = .next t ∧ AnswersOnly 0x0E number .notReady 0 [] s t)
  ∧ (∀ (x : Edge) (p : Part), EdgesValid p → x ∈ p.pmon.edges → x.kind = .fixed →
      [byteOf (4 * x.kind.code + x.raw.code), byteOf (16 * x.settled.code + 4 * x.override.code + x.effective.code)] = [4, 17])
  ∧
  (∀ (number hi lo count : Byte) (s : State), s.part.slu.inFlight = none → s.part.fm.state ≠ .unconfigured →
    let first := hi.toNat * 256 + lo.toNat
    let ne := s.part.pmon.edges.length
    let shown := (s.part.pmon.edges.drop (first - 1)).take count.toNat
    (first = 0 ∨ ne < first →
      ∃ t, exec (.readEdges number [hi, lo, count]) s = .next t ∧ AnswersOnly 0x0D number .noSuch 1 [] s t)
    ∧ (1 ≤ first → first ≤ ne → count = 0 ∨ 64 < count.toNat →
      ∃ t, exec (.readEdges number [hi, lo, count]) s = .next t ∧ AnswersOnly 0x0D number .outOfRange 2 [] s t)
    ∧ (1 ≤ first → first ≤ ne → 1 ≤ count.toNat → count.toNat ≤ 64 →
      ∃ t, exec (.readEdges number [hi, lo, count]) s = .next t
        ∧ shown.length = min count.toNat (ne + 1 - first)
        ∧ AnswersOnly 0x0D number .done 0 ([hi, lo, byteOf shown.length] ++ shown.flatMap fun x =>
            [byteOf (4 * x.kind.code + x.raw.code), byteOf (16 * x.settled.code + 4 * x.override.code + x.effective.code)])
          s t))
  ∧ (∀ (number hi lo : Byte) (s : State), s.part.slu.inFlight = none → s.part.fm.state ≠ .unconfigured →
    let shown := (s.part.pmon.netChange.drop (hi.toNat * 256 + lo.toNat)).take 90
    ∃ t, exec (.readChanges number [hi, lo]) s = .next t
      ∧ AnswersOnly 0x0E number .done 0
          (bytes16 s.part.pmon.netChange.length ++ [hi, lo, byteOf shown.length] ++ shown.flatMap bytes16) s t)

/-! ### Overrides, pins and the pass-through -/

/-- R42, R45, R192: OVERRIDE EDGES is refused by its form and while there is no floor. Otherwise a batch is applied up to its first bad
entry, named with its cause; each edge named by an applied entry takes the last such entry's override and the effective state that
follows, and no other edge changes. -/
def Obligations.OverrideBatchStopsAtBadEntry : Prop :=
  (∀ (number n : Byte) (bytes : List Byte) (s : State), s.part.slu.inFlight = none →
    (n.toNat = 0 ∨ 48 < n.toNat ∨ bytes.length ≠ 3 * n.toNat →
      ∃ t, exec (.overrideEdges number (n :: bytes)) s = .next t ∧ AnswersOnly 0x0F number .badForm 1 [] s t)
    ∧ (1 ≤ n.toNat → n.toNat ≤ 48 → bytes.length = 3 * n.toNat → s.part.fm.state = .unconfigured →
      ∃ t, exec (.overrideEdges number (n :: bytes)) s = .next t ∧ AnswersOnly 0x0F number .notReady 0 [] s t))
  ∧ ∀ (number n : Byte) (bytes : List Byte) (good rest : List (Nat × Nat)) (s : State), s.part.slu.inFlight = none →
    s.part.fm.state ≠ .unconfigured → 1 ≤ n.toNat → n.toNat ≤ 48 → bytes.length = 3 * n.toNat →
    overrideEntries bytes = good ++ rest →
    (∀ x ∈ good, (∃ e, s.part.pmon.edge? x.1 = some e ∧ e.kind = .sensed) ∧ x.2 ≤ 2) →
    let asked : Nat → Override := fun a => if a = 1 then .forceWall else if a = 2 then .forceOpen else .none
    let cause : Nat × Nat → Nat := fun x =>
      match s.part.pmon.edge? x.1 with
      | none => 1
      | some e => if e.kind = .fixed then 2 else 3
    let last : Nat → Option (Nat × Nat) := fun e => (good.filter fun x => x.1 == e).getLast?
    (rest = [] ∨ ∃ x tail, rest = x :: tail ∧ ¬ ((∃ e, s.part.pmon.edge? x.1 = some e ∧ e.kind = .sensed) ∧ x.2 ≤ 2)) →
    ∃ t, exec (.overrideEdges number (n :: bytes)) s = .next t ∧ LinkKeeps s.part.slu t.part.slu
      ∧ (rest = [] → Answers 0x0F number .done 0 [n, 0, 0] t)
      ∧ (∀ x tail, rest = x :: tail → Answers 0x0F number .partlyDone (good.length + 1)
          [byteOf good.length, byteOf rest.length, byteOf (cause x)] t)
      ∧ t = { s with part := { s.part with slu := t.part.slu, pmon := t.part.pmon } }
      ∧ t.part.pmon.edges.length = s.part.pmon.edges.length
      ∧ ∀ e x, s.part.pmon.edge? e = some x → t.part.pmon.edge? e = some (match last e with
          | none => x
          | some entry => { x with
              override := asked entry.2
              effective := if entry.2 = 1 then .walled else if entry.2 = 2 then .opened else x.settled })

/-- R48, R49, R55: what one effective change, made here by an OVERRIDE EDGES entry while the floor is RUNNING, does to the net change
set, the monitor, the quiet timer and the changed-since-snapshot flag. -/
def Obligations.EffectiveChangeMovesMonitor : Prop :=
  ∀ (number hi lo action : Byte) (base : List EdgeState) (x : Edge) (new : EdgeState) (s : State),
    s.part.slu.inFlight = none → s.part.fm.state = .running → s.part.pmon.baseline = some base → action.toNat ≤ 2 →
    let e := hi.toNat * 256 + lo.toNat
    s.part.pmon.edge? e = some x → x.kind = .sensed →
    new = (if action = 1 then .walled else if action = 2 then .opened else x.settled) → new ≠ x.effective →
    ∃ t, exec (.overrideEdges number [1, hi, lo, action]) s = .next t ∧ Answers 0x0F number .done 0 [1, 0, 0] t
      ∧ (∀ i, i ∈ t.part.pmon.netChange ↔ if i = e then base.getD (e - 1) .unknown ≠ new else i ∈ s.part.pmon.netChange)
      ∧ t.part.pmon.changed = (s.part.pmon.changed || s.part.rsq.seq == .solving)
      ∧ (t.part.pmon.netChange ≠ [] →
          t.part.pmon.monitor = .unsettled ∧ t.part.pmon.quiet = .running s.part.fm.clock s.part.pmon.qt)
      ∧ (t.part.pmon.netChange = [] → s.part.pmon.monitor = .unsettled → s.part.pmon.owed = false →
          t.part.pmon.monitor = .clean ∧ t.part.pmon.quiet = .stopped)
      ∧ (t.part.pmon.netChange = [] → s.part.pmon.monitor = .unsettled → s.part.pmon.owed = true →
          t.part.pmon.monitor = .unsettled ∧ t.part.pmon.quiet = .running s.part.fm.clock s.part.pmon.qt)
      ∧ (t.part.pmon.netChange = [] → s.part.pmon.monitor = .settled →
          t.part.pmon.monitor = .settled ∧ t.part.pmon.quiet = s.part.pmon.quiet)
      ∧ t.part.pmon.baseline = some base ∧ t.part.pmon.owed = s.part.pmon.owed ∧ t.part.pmon.auto = s.part.pmon.auto
      ∧ t.part.pmon.qt = s.part.pmon.qt

/-- R104 to R106, R193: PIN KEYPAD's checks in their order, its effect on the pin table and its reply; and the same of UNPIN
KEYPAD. -/
def Obligations.KeypadPinsAreWrittenAndRemoved : Prop :=
  (∀ (number b tag : Byte) (s : State), s.part.slu.inFlight = none → s.part.fm.state = .unconfigured →
    (∃ t, exec (.pinKeypad number [b, tag]) s = .next t ∧ AnswersOnly 0x10 number .notReady 0 [] s t)
    ∧ ∃ t, exec (.unpinKeypad number [b]) s = .next t ∧ AnswersOnly 0x11 number .notReady 0 [] s t)
  ∧
  (∀ (number b tag : Byte) (s : State), s.part.slu.inFlight = none → s.part.fm.state ≠ .unconfigured →
    ((s.part.fm.node? b.toNat) = none →
      ∃ t, exec (.pinKeypad number [b, tag]) s = .next t ∧ AnswersOnly 0x10 number .outOfRange 1 [] s t)
    ∧ ((s.part.fm.node? b.toNat).isSome = true → s.part.zt.zone? tag.toNat = none →
      ∃ t, exec (.pinKeypad number [b, tag]) s = .next t ∧ AnswersOnly 0x10 number .noSuch 2 [] s t)
    ∧ ((s.part.fm.node? b.toNat).isSome = true → (s.part.zt.zone? tag.toNat).isSome = true →
      (∀ x ∈ s.part.zt.pins, x.bay ≠ b.toNat) → 16 ≤ s.part.zt.pins.length →
      ∃ t, exec (.pinKeypad number [b, tag]) s = .next t ∧ AnswersOnly 0x10 number .full 0 [] s t)
    ∧ ((s.part.fm.node? b.toNat).isSome = true → (s.part.zt.zone? tag.toNat).isSome = true →
      ∀ old : Option Pin, s.part.zt.pins.find? (fun x => x.bay == b.toNat) = old →
      (old = none → s.part.zt.pins.length < 16) →
      ∃ t, exec (.pinKeypad number [b, tag]) s = .next t
        ∧ Answers 0x10 number .done 0 [byteOf t.part.zt.pins.length, ((old.map Pin.tag).map byteOf).getD 255] t
        ∧ LinkKeeps s.part.slu t.part.slu
        ∧ t = { s with part := { s.part with slu := t.part.slu, zt := { s.part.zt with pins := t.part.zt.pins } } }
        ∧ t.part.zt.pins.length = s.part.zt.pins.length + (if old = none then 1 else 0)
        ∧ (∀ x, x ∈ t.part.zt.pins ↔ x = ⟨b.toNat, tag.toNat⟩ ∨ (x ∈ s.part.zt.pins ∧ x.bay ≠ b.toNat))
        ∧ (s.part.zt.pins.Pairwise (fun x y => x.bay < y.bay) → t.part.zt.pins.Pairwise fun x y => x.bay < y.bay)))
  ∧ (∀ (number b : Byte) (s : State), s.part.slu.inFlight = none → s.part.fm.state ≠ .unconfigured →
    (s.part.fm.node? b.toNat = none →
      ∃ t, exec (.unpinKeypad number [b]) s = .next t ∧ AnswersOnly 0x11 number .outOfRange 1 [] s t)
    ∧ ((s.part.fm.node? b.toNat).isSome = true → (∀ x ∈ s.part.zt.pins, x.bay ≠ b.toNat) →
      ∃ t, exec (.unpinKeypad number [b]) s = .next t ∧ AnswersOnly 0x11 number .noSuch 1 [] s t)
    ∧ ((s.part.fm.node? b.toNat).isSome = true →
      ∀ old, s.part.zt.pins.find? (fun x => x.bay == b.toNat) = some old →
      ∃ t, exec (.unpinKeypad number [b]) s = .next t
        ∧ Answers 0x11 number .done 0 [byteOf old.tag, byteOf t.part.zt.pins.length] t ∧ LinkKeeps s.part.slu t.part.slu
        ∧ t = { s with part := { s.part with slu := t.part.slu, zt := { s.part.zt with pins := t.part.zt.pins } } }
        ∧ t.part.zt.pins = s.part.zt.pins.filter fun x => decide (x.bay ≠ b.toNat)))

/-- R37, R170, R194: PASS THROUGH is refused by its form, while there is no floor, and for a bay that is not ROOMABLE. A taken one stays
in flight without a reply; its slot is filled, and a free bus carries it at once. -/
def Obligations.PassThroughWaitsForExchange : Prop :=
  (∀ (number : Byte) (body : List Byte) (s : State), s.part.slu.inFlight = none →
    let refused : Status → Nat → Prop := fun status detail =>
      ∃ t, exec (.passThrough number body) s = .next t ∧ AnswersOnly 0x12 number status detail [] s t
    (body.length < 2 ∨ 13 < body.length → refused .badForm 0)
    ∧ (2 ≤ body.length → body.length ≤ 13 → s.part.fm.state = .unconfigured → refused .notReady 0)
    ∧ (2 ≤ body.length → body.length ≤ 13 → s.part.fm.state ≠ .unconfigured →
        s.part.fm.node? (body.getD 0 0).toNat = none → refused .noSuch 1))
  ∧ ∀ (number b : Byte) (raw : List Byte) (s : State), s.part.slu.inFlight = none → s.part.slu.replySlot = none →
    s.part.fm.state ≠ .unconfigured → (s.part.fm.node? b.toNat).isSome = true → 1 ≤ raw.length → raw.length ≤ 12 →
    ∃ t, exec (.passThrough number (b :: raw)) s = .next t ∧ t.part.slu.inFlight = some ⟨0x12, number⟩
      ∧ t.part.slu.replySlot = none ∧ t.part.slu.assembler = .hunting
      ∧ t = { s with part := { s.part with
          slu := t.part.slu
          cbm := { s.part.cbm with
            passSlot := some ⟨b.toNat, raw⟩
            bus := match s.part.cbm.bus with
              | .quiet => .sending (.pass b.toNat raw) false
              | other => other } } }

/-! ### The cell bus -/

/-- R20, R38: the end of a request opens reception, and each character that arrives is recorded while it is open and discarded
otherwise. The sixteenth character of a POLL or DRIVE reply ends reception as a passed limit would; a pass-through's ends so at the
sixteenth character after the one that ended its collection, the first bad one or the sixteenth. That the character ends reception
in its own event is log entry 9. -/
def Obligations.ReceptionRecordsCharacters : Prop :=
  (∀ (x : Transaction) (v : Bool) (s : State), s.part.cbm.bus = .sending x v →
    exec .cbRequestSent s = .next { s with part := { s.part with cbm := { s.part.cbm with bus := .receiving x v [] } } })
  ∧ (∀ (data : Byte) (mark low : Bool) (s : State), (∀ x v chars, s.part.cbm.bus ≠ .receiving x v chars) →
    exec (.cbReplyCharacter data mark low) s = .next s)
  ∧ (∀ (b want : Nat) (first : Option Byte) (x : Transaction) (v : Bool) (chars : List RxChar) (data : Byte)
      (mark low : Bool) (s : State), PollOrDrive b x want first → s.part.cbm.bus = .receiving x v chars →
    let full : State := { s with part := { s.part with
      cbm := { s.part.cbm with bus := .receiving x v (chars ++ [⟨data, mark, low⟩]) } } }
    (chars.length < 15 → exec (.cbReplyCharacter data mark low) s = .next full)
    ∧ (chars.length = 15 → exec (.cbReplyCharacter data mark low) s = exec .receptionEnd full))
  ∧ ∀ (b : Nat) (body : List Byte) (v : Bool) (chars : List RxChar) (data : Byte) (mark low : Bool) (s : State),
    s.part.cbm.bus = .receiving (.pass b body) v chars →
    let all := chars ++ [⟨data, mark, low⟩]
    let full : State := { s with part := { s.part with cbm := { s.part.cbm with bus := .receiving (.pass b body) v all } } }
    let clean := (all.takeWhile fun c => !c.mark && !c.stopLow).length
    let collecting := if 16 ≤ clean then 16 else min all.length (clean + 1)
    (all.length < collecting + 16 → exec (.cbReplyCharacter data mark low) s = .next full)
    ∧ (collecting + 16 ≤ all.length → exec (.cbReplyCharacter data mark low) s = exec .receptionEnd full)

/-- R21, R23, R25, R28, R34, R120: a failed POLL or DRIVE, with its cause: what it does to the bay's health record, and that a bay
failing for the third time becomes SILENT with a report, loses its edges' candidates and, listed in a VACANT-paced cutover, cuts
over. The third failure is read as at least the third (log entry 28). -/
def Obligations.FailedTransactionCountsTowardSilent : Prop :=
  ∀ (b want : Nat) (first : Option Byte) (x : Transaction) (chars : List RxChar) (cause : FailureCause) (r : BayRec)
    (s : State), PollOrDrive b x want first → s.part.cbm.bus = .receiving x false chars →
    FailedReply b want first chars cause → s.part.fm.node? b = some r →
    let visited : Prop := s.part.rsq.seq = .cutting ∧ s.part.cut.mode = .vacant ∧ b ∈ s.part.cut.list
    let rest := s.part.cut.list.filter fun x => x ≠ b
    ∃ t, exec .receptionEnd s = .next t ∧ t.pending = s.pending
      ∧ (∀ b', b' ∈ s.part.cbm.drivePending → b' ∈ t.part.cbm.drivePending)
      ∧ (r.health = .silent → t.part.fm.node? b = some { r with lastFailure := some cause })
      ∧ (r.health = .ok → r.failures < 2 →
          t.part.fm.node? b = some { r with lastFailure := some cause, failures := r.failures + 1 })
      ∧ (r.health = .silent ∨ r.failures < 2 →
          t.part.zt = s.part.zt ∧ t.part.cut = s.part.cut ∧ t.part.afa = s.part.afa
          ∧ t.part.cbm.drivePending = s.part.cbm.drivePending ∧ ∀ b', b' ≠ b → t.part.fm.node? b' = s.part.fm.node? b')
      ∧ (r.health = .ok → 2 ≤ r.failures →
          (∃ r', t.part.fm.node? b = some r' ∧ r'.health = .silent ∧ r'.failures = 3 ∧ r'.lastFailure = some cause
            ∧ r'.inputs = r.inputs ∧ r'.lastSent = r.lastSent ∧ r'.level = r.level)
          ∧ (Reportable s.part.slu 6 →
              t.part.slu.queue[s.part.slu.queue.length]? = some ⟨.nodeSilent b cause, s.part.fm.clock⟩)
          ∧ (¬ visited → t.part.cut = s.part.cut ∧ t.part.zt = s.part.zt
              ∧ ∃ r', t.part.fm.node? b = some r' ∧ r'.tag = r.tag ∧ r'.nextTag = r.nextTag ∧ r'.moves = r.moves)
          ∧ (visited → ∀ n, r.nextTag = some n →
              (∃ r', t.part.fm.node? b = some r' ∧ r'.tag = n ∧ r'.nextTag = none ∧ r'.moves = min 65535 (r.moves + 1))
              ∧ (rest ≠ [] → t.part.cut =
                  { s.part.cut with list := rest, run := s.part.cut.run.map fun x => { x with moved := x.moved + 1 } })
              ∧ (rest = [] → t.part.cut = s.part.cut.over ∧ t.part.rsq.seq ≠ .cutting))
          ∧ ∀ e y, eastEdge s.part.fm.cols b = some e ∨ southEdge s.part.fm.cols s.part.fm.rows b = some e →
              t.part.pmon.edge? e = some y → y.candidate = none)

/-- R24, R27, R30, R35, R42, R43, R48, R119: what a valid poll reply does: the bay's health, failure count, inputs and key counter; a
SILENT bay returns and owes a drive, and a mismatched echo is a restarted node; each contact reaches its SENSED edge, whose effective
state follows; the occupied flag and then the keypad event reach the lighting, while the floor is RUNNING alone; and a listed bay of
a VACANT-paced cutover whose flag is clear cuts over. -/
def Obligations.ValidPollStoresReply : Prop :=
  ∀ (b : Nat) (chars : List RxChar) (r : BayRec) (s : State), s.part.cbm.bus = .receiving (.poll b) false chars →
    ValidReply b 6 none chars → s.part.fm.node? b = some r →
    let occupied := (dataAt chars 0).getLsbD 2
    let counter := (dataAt chars 2).toNat / 16
    let code := (dataAt chars 2).toNat % 16
    let key : Option Key := if r.health = .ok ∧ r.keyCounter ≠ none ∧ r.keyCounter ≠ some counter then
        (if code = 1 then some .toggle else if code = 2 then some .raise else if code = 3 then some .lower else none)
      else none
    let flagged := s.part.occupiedFlag r.tag occupied
    let lit := match key with
      | none => flagged
      | some k => flagged.keypadEvent b k
    let visited : Prop :=
      s.part.rsq.seq = .cutting ∧ s.part.cut.mode = .vacant ∧ b ∈ s.part.cut.list ∧ occupied = false
    let rest := s.part.cut.list.filter fun x => x ≠ b
    ∃ t r', exec .receptionEnd s = .next t ∧ t.pending = s.pending ∧ t.part.fm.node? b = some r'
      ∧ r'.health = .ok ∧ r'.failures = 0
      ∧ r'.inputs = some ⟨occupied, (dataAt chars 1).toNat, (dataAt chars 0).getLsbD 3⟩
      ∧ r'.keyCounter = some counter ∧ r'.lastSent = r.lastSent ∧ r'.lastFailure = r.lastFailure
      ∧ r'.level = r.level
      ∧ (∀ b', b' ∈ s.part.cbm.drivePending → b' ∈ t.part.cbm.drivePending)
      ∧ (r.health = .silent → b ∈ t.part.cbm.drivePending
          ∧ (Reportable s.part.slu 7 → t.part.slu.queue[s.part.slu.queue.length]? = some ⟨.nodeBack b, s.part.fm.clock⟩))
      ∧ (∀ sent, r.health = .ok → b ∉ s.part.cbm.drivePending → r.lastSent = some sent →
          sent ≠ ⟨dataAt chars 3, dataAt chars 4⟩ → b ∈ t.part.cbm.drivePending
          ∧ (Reportable s.part.slu 8 →
              t.part.slu.queue[s.part.slu.queue.length]? = some ⟨.nodeRestarted b, s.part.fm.clock⟩))
      ∧ (∀ (e : Nat) (present : Bool) (y : Edge),
          (eastEdge s.part.fm.cols b = some e ∧ present = (dataAt chars 0).getLsbD 0)
            ∨ (southEdge s.part.fm.cols s.part.fm.rows b = some e ∧ present = (dataAt chars 0).getLsbD 1) →
          s.part.pmon.edge? e = some y → y.kind = .sensed →
          let taken := y.contact ((s.part.fm.grid.map Grid.sr).getD 0) present
          let effective := match y.override with
            | .forceWall => .walled
            | .forceOpen => .opened
            | .none => taken.settled
          (∃ y', t.part.pmon.edge? e = some y' ∧ y'.raw = if present then .present else .absent)
            ∧ (¬ SurveyEndsNext s.part → t.part.pmon.edge? e = some { taken with effective := effective })
            ∧ ∀ base, s.part.fm.state = .running → s.part.pmon.baseline = some base → effective ≠ y.effective →
                (e ∈ t.part.pmon.netChange ↔ base.getD (e - 1) .unknown ≠ effective))
      ∧ (¬ visited → t.part.cut = s.part.cut ∧ r'.tag = r.tag ∧ r'.nextTag = r.nextTag ∧ r'.moves = r.moves
          ∧ (s.part.fm.state = .running → t.part.zt = lit.zt
              ∧ ∀ b', (t.part.fm.node? b').map BayRec.target = (lit.fm.node? b').map BayRec.target)
          ∧ (s.part.fm.state ≠ .running → t.part.zt = s.part.zt
              ∧ ∀ b', (t.part.fm.node? b').map BayRec.target = (s.part.fm.node? b').map BayRec.target))
      ∧ (visited → ∀ n, r.nextTag = some n → r'.tag = n ∧ r'.nextTag = none ∧ r'.moves = min 65535 (r.moves + 1)
          ∧ (rest ≠ [] → t.part.cut =
              { s.part.cut with list := rest, run := s.part.cut.run.map fun x => { x with moved := x.moved + 1 } })
          ∧ (rest = [] → t.part.cut = s.part.cut.over ∧ t.part.rsq.seq ≠ .cutting))

/-- R2, R3: the numbering of the edges, for every COLS and ROWS: the ids of the two edges that a bay reports, the two bays of
each id, the count of ids, and that every id is one bay's east or south edge. R41 to R43: what a contact does to a SENSED edge's
record, before its effective state is recomputed (SR reached is read as at least SR: log entry 28). -/
def Obligations.ContactDebouncesEdge : Prop :=
  (∀ cols rows r c : Nat, 1 ≤ r → r ≤ rows → 1 ≤ c → c ≤ cols →
    let b := (r - 1) * cols + c
    let nv := (cols - 1) * rows
    eastEdge cols b = (if c < cols then some ((r - 1) * (cols - 1) + c) else none)
    ∧ southEdge cols rows b = (if r < rows then some (nv + (r - 1) * cols + c) else none)
    ∧ (c < cols → edgeBays cols rows ((r - 1) * (cols - 1) + c) = (b, b + 1))
    ∧ (r < rows → edgeBays cols rows (nv + (r - 1) * cols + c) = (b, b + cols)))
  ∧ (∀ cols rows : Nat, edgeCount cols rows = (cols - 1) * rows + cols * (rows - 1)
    ∧ ∀ e, 1 ≤ e → e ≤ edgeCount cols rows →
        ∃ b, 1 ≤ b ∧ b ≤ cols * rows ∧ (eastEdge cols b = some e ∨ southEdge cols rows b = some e))
  ∧ ∀ (sr : Nat) (present : Bool) (x : Edge),
    let raw : Raw := if present then .present else .absent
    let agrees : EdgeState := if present then .walled else .opened
    let count : Nat := match x.candidate with
      | some c => if c.present = present then c.count + 1 else 1
      | none => 1
    (x.settled = agrees → x.contact sr present = { x with raw := raw, candidate := none })
    ∧ (x.settled ≠ agrees → sr ≤ count → x.contact sr present = { x with raw := raw, settled := agrees, candidate := none })
    ∧ (x.settled ≠ agrees → count < sr → x.contact sr present = { x with raw := raw, candidate := some ⟨present, count⟩ })

/-- R130, R133, R135, R139 to R141: what the occupied flag and a keypad event do to the zone they reach and, while the floor is
RUNNING, to its members' targets; no other zone changes, nor any other bay. -/
def Obligations.ZoneTakesFlagsAndKeys : Prop :=
  (∀ (tag : Nat) (z : Zone) (p : Part), p.zt.zone? tag = some z →
    p.occupiedFlag tag false = p
    ∧ p.occupiedFlag tag true = { p with
        slu := (p.occupiedFlag tag true).slu, zt := (p.occupiedFlag tag true).zt, fm := (p.occupiedFlag tag true).fm }
    ∧ (p.occupiedFlag tag true).zt.nextTag = p.zt.nextTag ∧ (p.occupiedFlag tag true).zt.pins = p.zt.pins
    ∧ (∀ other, (p.occupiedFlag tag true).zt.zone? other = if other = tag then
          some { z with occupancy := .occupied, vacancy := .running p.fm.clock z.settings.vacancyDelay }
        else p.zt.zone? other)
    ∧ (z.occupancy = .occupied → (p.occupiedFlag tag true).slu = p.slu ∧ (p.occupiedFlag tag true).fm = p.fm)
    ∧ (z.occupancy = .vacant →
        (Enabled p.slu 9 → p.slu.queue.length < 16 →
          (p.occupiedFlag tag true).slu.queue = p.slu.queue ++ [⟨.occupancy tag .occupied, p.fm.clock⟩])
        ∧ (p.fm.state = .running → (p.occupiedFlag tag true).fm = { p.fm with bays := (p.occupiedFlag tag true).fm.bays }
            ∧ ∀ b r, p.fm.node? b = some r → (p.occupiedFlag tag true).fm.node? b = some (if r.tag = tag then
                { r with target := some (if z.manualOff then 0 else z.settings.occupiedLevel) } else r))))
  ∧ ∀ (b tag : Nat) (k : Key) (z : Zone) (r : BayRec) (p : Part), p.fm.node? b = some r →
    tag = ((p.zt.pins.find? fun x => x.bay == b).map Pin.tag).getD r.tag → p.zt.zone? tag = some z →
    let pressed : Zone := match k with
      | .toggle => { z with manualOff := !z.manualOff }
      | .raise => { z with settings := { z.settings with
          occupiedLevel := min 1000 (z.settings.occupiedLevel + 100)
          standbyLevel := min (min 1000 (z.settings.occupiedLevel + 100)) z.settings.standbyLevel } }
      | .lower => { z with settings := { z.settings with
          occupiedLevel := min 1000 (z.settings.occupiedLevel - 100)
          standbyLevel := min (min 1000 (z.settings.occupiedLevel - 100)) z.settings.standbyLevel } }
    let target := if pressed.manualOff then 0
      else if z.occupancy = .occupied then pressed.settings.occupiedLevel else pressed.settings.standbyLevel
    p.keypadEvent b k = { p with zt := (p.keypadEvent b k).zt, fm := (p.keypadEvent b k).fm }
    ∧ (p.keypadEvent b k).zt.nextTag = p.zt.nextTag ∧ (p.keypadEvent b k).zt.pins = p.zt.pins
    ∧ (∀ other, (p.keypadEvent b k).zt.zone? other = if other = tag then some pressed else p.zt.zone? other)
    ∧ (p.fm.state = .running → (p.keypadEvent b k).fm = { p.fm with bays := (p.keypadEvent b k).fm.bays }
        ∧ ∀ b' r', p.fm.node? b' = some r' → (p.keypadEvent b k).fm.node? b' =
            some (if r'.tag = tag then { r' with target := some target } else r'))

/-- R33: a valid drive reply clears the failure count, records the pair sent, and takes the bay out of the drive-pending set unless the
pair it should show has changed meanwhile. -/
def Obligations.ValidDriveRecordsPair : Prop :=
  ∀ (b level : Nat) (pair : Pair) (chars : List RxChar) (r : BayRec) (s : State),
    s.part.cbm.bus = .receiving (.drive b pair) false chars → ValidReply b 2 (some 0x3C) chars →
    s.part.fm.node? b = some r → r.level = some level →
    let qmax := (s.part.fm.grid.map Grid.qmax).getD 0
    let shown : Pair := ⟨byteOf ((level * 250 + 500) / 1000), byteOf ((r.q * 250 + qmax / 2) / qmax)⟩
    ∃ t, exec .receptionEnd s = .next t ∧ t.pending = s.pending
      ∧ t.part.fm.node? b = some { r with failures := 0, lastSent := some pair }
      ∧ (∀ b', b' ≠ b → t.part.fm.node? b' = s.part.fm.node? b')
      ∧ (b ∈ t.part.cbm.drivePending ↔ shown ≠ pair)
      ∧ (∀ b', b' ≠ b → (b' ∈ t.part.cbm.drivePending ↔ b' ∈ s.part.cbm.drivePending))
      ∧ t.part.zt = s.part.zt ∧ t.part.cut = s.part.cut ∧ t.part.afa = s.part.afa

/-- R38, R170, R194: the end of a pass-through's reception builds its reply and clears the slot; no bay's record changes. That a bad
sixteenth character ends the collection as BAD is log entry 12. -/
def Obligations.PassThroughReplyIsBuilt : Prop :=
  ∀ (number : Byte) (b : Nat) (body : List Byte) (chars : List RxChar) (s : State),
    s.part.cbm.bus = .receiving (.pass b body) false chars → s.part.slu.inFlight = some ⟨0x12, number⟩ →
    let got := (chars.takeWhile fun c => !c.mark && !c.stopLow).take 16
    let cause : Byte := if got.length = 16 then 2 else if got.length < chars.length then 3 else if chars = [] then 0 else 1
    ∃ t, exec .receptionEnd s = .next t ∧ t.part.cbm.passSlot = none
      ∧ t.part.slu.inFlight = some ⟨0x12, number⟩
      ∧ t.part.slu.replySlot =
          some ⟨0x92, number, 0 :: 0 :: byteOf got.length :: cause :: got.map RxChar.data⟩
      ∧ t.part.fm.bays = s.part.fm.bays ∧ t.part.zt = s.part.zt ∧ t.part.cut = s.part.cut ∧ t.part.afa = s.part.afa
      ∧ t.part.slu.queue = s.part.slu.queue

/-- R10, R26, R29, R32, R36, R40: the arbiter's grant at the end of a transaction, shown on one whose outcome a setup or a warm
restart has voided: the pass-through first, then a drive while fewer than four have run, then the lowest due bay; with no bay due
above the cursor the round completes, and the lowest due bay of the next is polled or a hold begins. A transaction that is not
voided is granted after just as a voided one would be from the state its outcome left. That a bay eligible for a drive has an output
level, beside R32's health and floor state, is log entry 18; that the drive-pending set is ascending is kept by every step
(PendingLaws). -/
def Obligations.ArbiterGrantsInOrder : Prop :=
  (∀ (x : Transaction) (chars : List RxChar) (s : State), s.part.cbm.bus = .receiving x true chars →
    s.part.slu.tx ≠ .idle →
    let c := s.part.cbm
    let eligible : Nat → Prop := fun b => s.part.fm.state = .running ∧ b ∈ c.drivePending
      ∧ ∃ r, s.part.fm.node? b = some r ∧ r.health = .ok ∧ r.level.isSome = true
    let due : Nat → Prop := fun b => c.pollCursor < b
      ∧ ∃ r, s.part.fm.node? b = some r ∧ (r.health = .ok ∨ c.roundNumber % 8 = 0)
    let granted : Cbm → Prop := fun c' => exec .receptionEnd s = .next { s with part := { s.part with cbm := c' } }
    (s.part.fm.state = .unconfigured → granted { c with bus := .quiet })
    ∧ (∀ pass, s.part.fm.state ≠ .unconfigured → c.passSlot = some pass →
        granted { c with bus := .sending (.pass pass.bay pass.body) false })
    ∧ (∀ b r l, c.passSlot = none → c.drivePending.Pairwise (· < ·) → c.driveRun < 4 → eligible b →
        s.part.fm.node? b = some r → r.level = some l →
        (c.driveCursor < b ∧ ∀ d, eligible d → c.driveCursor < d → b ≤ d)
          ∨ ((∀ d, eligible d → d ≤ c.driveCursor) ∧ ∀ d, eligible d → b ≤ d) →
        granted { c with
          driveCursor := b, driveRun := c.driveRun + 1
          bus := .sending (.drive b ⟨levelByte l, damperByte ((s.part.fm.grid.map Grid.qmax).getD 0) r.q⟩) false })
    ∧ (∀ b, s.part.fm.state ≠ .unconfigured → c.passSlot = none → (4 ≤ c.driveRun ∨ ∀ d, ¬ eligible d) → due b →
        (∀ d, due d → b ≤ d) →
        granted { c with driveRun := 0, pollCursor := b, bus := .sending (.poll b) false })
    ∧ (s.part.fm.state ≠ .unconfigured → c.passSlot = none → (4 ≤ c.driveRun ∨ ∀ d, ¬ eligible d) → (∀ d, ¬ due d) →
        ¬ SurveyEndsNext s.part →
        let round := (c.roundNumber + 1) % 65536
        let dueNext : Nat → Prop := fun b => ∃ r, s.part.fm.node? b = some r ∧ (r.health = .ok ∨ round % 8 = 0)
        let counted : Cbm → Prop := fun c' => exec .receptionEnd s = .next { s with part := { s.part with
          cbm := c'
          fm := if s.part.fm.state = .survey ∧ s.part.fm.surveyOver = false then
              { s.part.fm with surveyRounds := s.part.fm.surveyRounds + 1 }
            else s.part.fm } }
        (∀ b, dueNext b → (∀ d, dueNext d → b ≤ d) →
          counted { c with driveRun := 0, roundNumber := round, pollCursor := b, bus := .sending (.poll b) false })
        ∧ ((∀ b, ¬ dueNext b) →
          counted { c with driveRun := 0, roundNumber := round, pollCursor := 0, bus := .hold false })))
  ∧ ∀ (x : Transaction) (chars : List RxChar) (s : State), s.part.cbm.bus = .receiving x false chars →
    let after := { s.part with cbm := { s.part.cbm with bus := .quiet } }.applyOutcome x chars
    after.cbm.bus = .quiet ∧ exec .receptionEnd s =
      exec .receptionEnd { s with part := { after with cbm := { after.cbm with bus := .receiving x true chars } } }

/-- R11, R26, R29, R32, R36, R37: the end of an idle hold completes its round, and the arbiter grants: a waiting pass-through first,
then a drive while fewer than four have run, else the next round's lowest due bay is polled, or the next hold begins. That an
eligible bay has an output level is log entry 18, and that the hold's end completes the round before the grant, log entry 11. A hold
that a setup or a warm restart has voided completes no round (log entry 10): its end is that of a voided transaction. -/
def Obligations.IdleHoldCompletesRound : Prop :=
  (∀ s : State, s.part.cbm.bus = .hold false → s.part.fm.state ≠ .unconfigured →
    let c := s.part.cbm
    let round := (c.roundNumber + 1) % 65536
    let due : Nat → Prop := fun b => 0 < b ∧ ∃ r, s.part.fm.node? b = some r ∧ (r.health = .ok ∨ round % 8 = 0)
    let eligible : Nat → Prop := fun b => s.part.fm.state = .running ∧ b ∈ c.drivePending
      ∧ ∃ r, s.part.fm.node? b = some r ∧ r.health = .ok ∧ r.level.isSome = true
    ∃ t, exec .idleHoldEnd s = .next t ∧ t.pending = s.pending ∧ t.part.slu = s.part.slu ∧ t.part.fm.bays = s.part.fm.bays
      ∧ (s.part.fm.state = .running → t.part.fm = s.part.fm ∧ t.part.pmon = s.part.pmon ∧ t.part.rsq = s.part.rsq)
      ∧ (∀ pass, c.passSlot = some pass → t.part.cbm =
          { c with roundNumber := round, pollCursor := 0, bus := .sending (.pass pass.bay pass.body) false })
      ∧ (∀ b r l, c.passSlot = none → c.drivePending.Pairwise (· < ·) → c.driveRun < 4 → eligible b →
          s.part.fm.node? b = some r → r.level = some l →
          (c.driveCursor < b ∧ ∀ d, eligible d → c.driveCursor < d → b ≤ d)
            ∨ ((∀ d, eligible d → d ≤ c.driveCursor) ∧ ∀ d, eligible d → b ≤ d) →
          t.part.cbm = { c with
            roundNumber := round, pollCursor := 0, driveCursor := b, driveRun := c.driveRun + 1
            bus := .sending (.drive b ⟨levelByte l, damperByte ((s.part.fm.grid.map Grid.qmax).getD 0) r.q⟩) false })
      ∧ (∀ b, c.passSlot = none → (4 ≤ c.driveRun ∨ ∀ d, ¬ eligible d) → due b → (∀ d, due d → b ≤ d) →
          t.part.cbm = { c with roundNumber := round, pollCursor := b, driveRun := 0, bus := .sending (.poll b) false })
      ∧ (c.passSlot = none → (4 ≤ c.driveRun ∨ ∀ d, ¬ eligible d) → (∀ b, ¬ due b) →
          t.part.cbm = { c with roundNumber := round, pollCursor := 0, driveRun := 0, bus := .hold false }))
  ∧ ∀ (x : Transaction) (chars : List RxChar) (s : State), s.part.cbm.bus = .hold true → s.part.slu.tx ≠ .idle →
    exec .idleHoldEnd s = exec .receptionEnd
      { s with part := { s.part with cbm := { s.part.cbm with bus := .receiving x true chars } } }

/-- R11, R12, R29, R64: the survey ends at round SR + 3, read as at least SR + 3 (log entry 28). Every SENSED edge still UNKNOWN is
settled by its raw field, and the initial solve starts from the snapshot; shown at the end of an idle hold, and at the end of a
transaction that leaves no bay due. -/
def Obligations.SurveyEndSettlesEdges : Prop :=
  ∀ (c : Instr) (s : State),
    (c = .idleHoldEnd ∧ s.part.cbm.bus = .hold false)
      ∨ (c = .receptionEnd ∧ (∃ x chars, s.part.cbm.bus = .receiving x true chars) ∧ s.part.cbm.passSlot = none
          ∧ ∀ b r, s.part.fm.node? b = some r → s.part.cbm.pollCursor < b →
              r.health = .silent ∧ s.part.cbm.roundNumber % 8 ≠ 0) →
    s.part.fm.state = .survey → s.part.fm.surveyOver = false →
    (s.part.fm.grid.map Grid.sr).getD 0 + 3 ≤ s.part.fm.surveyRounds + 1 →
    ∃ t, exec c s = .next t ∧ t.part.fm.state = .survey ∧ t.part.rsq.seq = .solving
      ∧ t.part.rsq.snapshot = some ⟨t.part.pmon.edges.map Edge.effective, true⟩ ∧ t.part.pmon.changed = false
      ∧ t.part.pmon.netChange = s.part.pmon.netChange ∧ t.part.pmon.monitor = s.part.pmon.monitor
      ∧ t.part.pmon.quiet = s.part.pmon.quiet ∧ t.part.cut = s.part.cut ∧ t.part.zt = s.part.zt
      ∧ ∀ e x, s.part.pmon.edge? e = some x → ∃ y, t.part.pmon.edge? e = some y
          ∧ y.override = x.override ∧ y.raw = x.raw
          ∧ (x.kind = .sensed → x.settled = .unknown →
              y.settled = (if x.raw = .present then .walled else .opened) ∧ y.candidate = none
              ∧ y.effective = match x.override with
                | .forceWall => .walled
                | .forceOpen => .opened
                | .none => y.settled)
          ∧ (x.kind = .fixed ∨ x.settled ≠ .unknown → y = x)

/-! ### The timers, the solve and the cutover -/

/-- R50, R53, R62, R64: the quiet timer's expiry makes the monitor SETTLED, and with auto on and the sequencer IDLE on a RUNNING floor
a solve starts. The expiry is taken when the whole seconds counted allow it (log entry 5). -/
def Obligations.QuietExpirySettlesMonitor : Prop :=
  ∀ (since : Clock) (span : Nat) (s : State), s.part.pmon.quiet = .running since span →
    span ≤ (s.part.fm.clock - since).toNat + 1 →
    let starts : Bool := s.part.pmon.auto && s.part.rsq.seq == .idle && s.part.fm.state == .running
    exec .quietTimerExpiry s = .next { s with part := { s.part with
      pmon := { s.part.pmon with
        quiet := .stopped, monitor := .settled, changed := if starts then false else s.part.pmon.changed }
      rsq := if starts then
          { s.part.rsq with seq := .solving, requested := false, snapshot := some ⟨s.part.pmon.edges.map Edge.effective, false⟩ }
        else s.part.rsq } }

/-- R13, R63, R78: a stale solve is discarded whole, with SOLVE_DISCARDED; a new one starts at once during the survey, or on a RUNNING
floor that R63 finds asking for one. -/
def Obligations.StaleSolveIsDiscarded : Prop :=
  ∀ (snap : Snapshot) (s : State), s.part.rsq.seq = .solving → s.part.rsq.snapshot = some snap →
    s.part.pmon.changed = true → s.part.fm.state ≠ .unconfigured →
    let again : Prop := s.part.fm.state = .survey ∨ s.part.rsq.requested = true
      ∨ (s.part.pmon.monitor = .settled ∧ s.part.pmon.auto = true)
    ∃ t, exec .solveCompletion s = .next t
      ∧ (¬ again → t = { s with part := { s.part with
          slu := t.part.slu, rsq := { s.part.rsq with seq := .idle, snapshot := none } } })
      ∧ (again → t = { s with part := { s.part with
          slu := t.part.slu
          pmon := { s.part.pmon with changed := false }
          rsq := { s.part.rsq with seq := .solving, requested := false, snapshot := some ⟨s.part.pmon.edges.map Edge.effective, s.part.fm.state == .survey⟩ } } })
      ∧ (Reportable s.part.slu 3 → t.part.slu.queue = s.part.slu.queue ++ [⟨.solveDiscarded, s.part.fm.clock⟩])

/-- R13, R47, R52, R77 to R83, R86, R87, R91, R93, R94, R97, R99, R112, R117, R126, R144: an accepted solve makes its snapshot the
baseline, empties the net change set, makes the monitor CLEAN, replaces the result record and reports it first; an initial solve
makes the floor RUNNING. From a zone table that meets its laws, with the tags that R87 gives: every bay's planned tag and folded
mark, the zone table after the commit, and the cutover that each pacing makes of the moving bays. The solve's inputs are read at the
completion (log entry 16). -/
def Obligations.AcceptedSolveCommits : Prop :=
  (∀ (snap : Snapshot) (s : State), s.part.rsq.seq = .solving → s.part.rsq.snapshot = some snap →
    s.part.pmon.changed = false →
    ∃ t result, exec .solveCompletion s = .next t ∧ t.pending = s.pending
      ∧ t.part.pmon.baseline = some snap.edges ∧ t.part.pmon.netChange = [] ∧ t.part.pmon.quiet = .stopped
      ∧ t.part.pmon.owed = false ∧ t.part.pmon.monitor = .clean ∧ t.part.pmon.edges = s.part.pmon.edges
      ∧ t.part.rsq.result = some result ∧ result.time = s.part.fm.clock
      ∧ (s.part.zt.pins = [] → Reportable s.part.slu 2 →
          t.part.slu.queue[s.part.slu.queue.length]? = some ⟨.solveDone result, s.part.fm.clock⟩)
      ∧ (snap.initial = true → t.part.fm.state = .running ∧ ∀ b r, t.part.fm.node? b = some r → r.level = r.target
          ∧ b ∈ t.part.cbm.drivePending)
      ∧ (snap.initial = false → t.part.fm.state = s.part.fm.state))
  ∧ ∀ (snap : Snapshot) (s : State), s.part.rsq.seq = .solving → s.part.rsq.snapshot = some snap →
    s.part.pmon.changed = false → ZonesValid s.part → ZoneLaws s.part →
    let plan := (s.part.solveInput snap.edges).plan
    ∃ t tags, exec .solveCompletion s = .next t ∧ tags.length = plan.admitted.length
      ∧ TagsGiven (s.part.zt.zones.map Zone.tag) s.part.zt.nextTag tags t.part.zt.nextTag
      ∧ (let planned := plannedBy plan tags
        let movers := moversBy plan tags s.part
        let result : SolveResult := ⟨s.part.fm.clock, plan.found, plan.floor.length, plan.kept.length, plan.admitted.length,
          plan.overflowBays, plan.retiring.length, movers.length⟩
        let atOnce : Nat → Bool := fun b => (s.part.fm.node? b).any fun r => r.health == .silent
        let now := movers.filter atOnce
        let later := movers.filter fun b => !atOnce b
        let starts : Nat → RunRecord := fun moved => ⟨s.part.fm.clock, movers.length, moved⟩
        let mode := s.part.cut.mode
        t.part.rsq.result = some result
        ∧ (∀ b r, s.part.fm.node? b = some r → ∃ r', t.part.fm.node? b = some r' ∧ r'.folded = plan.isFolded b
            ∧ r'.nextTag.getD r'.tag = planned b)
        ∧ (∀ z, t.part.zt.zone? 0 = some z → z.foldedBays = plan.overflowBays)
        ∧ (snap.initial = false → movers = [] ∨ mode = .step ∨ (mode = .vacant ∧ now = []) →
            CommitWritesZones plan tags s.part t.part ∧ t.part.fm = { s.part.fm with bays := t.part.fm.bays }
            ∧ t.part.cbm = s.part.cbm ∧ t.part.afa = s.part.afa
            ∧ (s.part.zt.pins = [] → Queued (commitReports plan result) s.part t.part))
        ∧ (snap.initial = false → movers = [] →
            t.part.cut = s.part.cut ∧ (s.part.rsq.requested = false → t.part.rsq.seq = .idle))
        ∧ (snap.initial = false → movers ≠ [] → mode = .step → t.part.rsq.seq = .cutting ∧ t.part.cut =
            { s.part.cut with
              list := movers, run := some (starts 0), stepTimer := .running s.part.fm.clock s.part.cut.interval
              deadline := .running s.part.cut.limit })
        ∧ (snap.initial = false → movers ≠ [] → mode = .vacant →
            (later ≠ [] → t.part.rsq.seq = .cutting ∧ t.part.cut =
              { s.part.cut with list := later, run := some (starts now.length), deadline := .running s.part.cut.limit })
            ∧ (later = [] → t.part.rsq.seq ≠ .cutting ∧ t.part.cut = s.part.cut.over)
            ∧ ∀ b r, s.part.fm.node? b = some r → ∃ r', t.part.fm.node? b = some r'
                ∧ r'.nextTag = if b ∈ later then some (planned b) else none)
        ∧ (movers ≠ [] → snap.initial = true ∨ mode = .block →
            t.part.rsq.seq ≠ .cutting ∧ t.part.cut = s.part.cut.over
            ∧ (∀ b r, s.part.fm.node? b = some r → ∃ r', t.part.fm.node? b = some r' ∧ r'.tag = planned b
                ∧ r'.nextTag = none ∧ r'.moves = if planned b = r.tag then r.moves else min 65535 (r.moves + 1))
            ∧ (s.part.zt.pins = [] → QueuedFirst
                (commitReports plan result ++ [.cutoverDone movers.length movers.length .paced 0]) s.part t.part))
        ∧ (snap.initial = true →
            (∀ b r, t.part.fm.node? b = some r → ∃ z, t.part.zt.zone? r.tag = some z ∧ r.target = some
              (if z.manualOff then 0
                else if z.occupancy = .occupied then z.settings.occupiedLevel else z.settings.standbyLevel))
            ∧ (∀ z ∈ t.part.zt.zones, z.life = .live → z.vacancy = .running s.part.fm.clock z.settings.vacancyDelay)
            ∧ (∀ f, s.part.afa.supply = some f →
                t.part.afa = { s.part.afa with timer := .running s.part.fm.clock s.part.afa.ai })
            ∧ (s.part.slu.tx ≠ .idle → Enabled s.part.slu 1 →
                t.part.slu.queue.getLast? = some ⟨.surveyDone, s.part.fm.clock⟩
                  ∨ (16 ≤ t.part.slu.queue.length ∧ t.part.slu.lost = true))))

/-- R68, R69, R77: at an accepted completion every bay of one component holds or plans one tag, and every bay of a floor component tag
0. Components are joined by the edges that the snapshot holds OPEN; the other inputs are read at the completion (log entry 16). -/
def Obligations.AcceptedSolveZonesEachComponent : Prop :=
  ∀ (snap : Snapshot) (s : State), s.part.rsq.seq = .solving → s.part.rsq.snapshot = some snap →
    s.part.pmon.changed = false →
    ∃ t, exec .solveCompletion s = .next t
      ∧ ∀ c ∈ (s.part.solveInput snap.edges).components, ∃ tag, ∀ b ∈ c.bays, ∃ r, t.part.fm.node? b = some r
          ∧ r.nextTag.getD r.tag = tag
          ∧ ((∃ x ∈ c.bays, x ∈ s.part.fm.spine) ∨ s.part.fm.rl < c.bays.length → tag = 0)

/-- R68: the solver's components are the classes of ROOMABLE bays that OPEN edges connect, keyed by their lowest bay, numbered by
ascending key and counted in the result record. -/
def Obligations.ComponentsAreConnectedBays : Prop :=
  ∀ (i : SolveInput), (i.tagOf.map Prod.fst).Pairwise (· < ·) → (∀ b ∈ i.tagOf.map Prod.fst, 1 ≤ b ∧ b ≤ i.n) →
    let bays := i.tagOf.map Prod.fst
    let joined : Nat → Nat → Prop := fun a b => a ∈ bays ∧ b ∈ bays
      ∧ ∃ e, i.snapshot[e]? = some .opened ∧ edgeBays i.cols i.rows (e + 1) = (a, b)
    (∀ b ∈ bays, ∃ c ∈ i.components, b ∈ c.bays)
    ∧ (∀ c ∈ i.components, ∀ a ∈ c.bays, ∀ b, b ∈ c.bays ↔ b ∈ bays ∧ Relation.EqvGen joined a b)
    ∧ (∀ c ∈ i.components, c.key ∈ c.bays ∧ ∀ b ∈ c.bays, c.key ≤ b)
    ∧ (i.components.map Component.key).Pairwise (· < ·)
    ∧ ∀ now moving, (i.plan.result now moving).found = i.components.length

/-- R69 to R76: the solver's matching. A floor component holds a spine bay or is over RL; a room component continues a zone exactly when
each is the other's best; the born components rank by size and then key, and the first of them are admitted; a parent is the zone of
greatest overlap. No two components of a plan continue one zone, each continues a room zone it overlaps, and the zones retired are
those that no component continues. -/
def Obligations.EachZoneContinuesOnce : Prop :=
  ∀ (i : SolveInput), (i.tagOf.map Prod.fst).Pairwise (· < ·) →
    let isFloor : Component → Prop := fun c => (∃ b ∈ c.bays, b ∈ i.spine) ∨ i.rl < c.bays.length
    let isRoom : Component → Prop := fun c => c ∈ i.components ∧ ¬ isFloor c
    let overlap : Component → Nat → Nat := fun c z => (c.bays.filter fun b => i.tag b == some z).length
    let bestZone : Component → Nat → Prop := fun c z => z ∈ i.zones ∧ 0 < overlap c z
      ∧ ∀ z' ∈ i.zones, overlap c z' ≤ overlap c z ∧ (overlap c z' = overlap c z → z ≤ z')
    let bestRoom : Nat → Component → Prop := fun z c => isRoom c ∧ 0 < overlap c z
      ∧ ∀ c', isRoom c' → overlap c' z ≤ overlap c z ∧ (overlap c' z = overlap c z → c.key ≤ c'.key)
    let born := i.plan.admitted.map Prod.fst ++ i.plan.overflowing
    (i.plan.kept.map Prod.snd).Nodup
    ∧ (∀ k ∈ i.plan.kept, k.2 ∈ i.zones ∧ ∃ b ∈ k.1.bays, i.tag b = some k.2)
    ∧ (∀ z, z ∈ i.plan.retiring ↔ z ∈ i.zones ∧ z ∉ i.plan.kept.map Prod.snd)
    ∧ i.plan.admitted.length ≤ 31 - i.plan.kept.length
    ∧ (∀ c, c ∈ i.plan.floor ↔ c ∈ i.components ∧ isFloor c)
    ∧ (∀ c z, (c, z) ∈ i.plan.kept ↔ isRoom c ∧ bestZone c z ∧ bestRoom z c)
    ∧ (∀ c, c ∈ born ↔ isRoom c ∧ ∀ z, (c, z) ∉ i.plan.kept)
    ∧ born.Pairwise (fun a b => b.bays.length < a.bays.length ∨ (b.bays.length = a.bays.length ∧ a.key < b.key))
    ∧ i.plan.admitted.length = min born.length (min (31 - i.plan.kept.length) (62 - i.zones.length))
    ∧ (∀ a ∈ i.plan.admitted, 0 < overlap a.1 a.2
        ∧ ∀ z, overlap a.1 z ≤ overlap a.1 a.2 ∧ (overlap a.1 z = overlap a.1 a.2 → a.2 ≤ z))
    ∧ (∀ b, i.plan.isFolded b = true ↔ ∃ c ∈ i.plan.overflowing, b ∈ c.bays)
    ∧ i.plan.overflowBays = (i.plan.overflowing.map fun c => c.bays.length).sum

/-- R90, R100, R101, R107, R114, R118, R125, R126: a step timer expiry moves the lowest listed bay, with its zones' counts, anchors
and life states, and the zone it leaves empty is freed with its pins; the timer restarts while bays remain, and the cutover ends
with a report and an allocation when none does. The expiry is taken when the whole seconds counted allow it (log entry 5). -/
def Obligations.StepExpiryMovesLowestBay : Prop :=
  ∀ (since : Clock) (span b : Nat) (rest : List Nat) (r : BayRec) (n : Nat) (s : State),
    s.part.cut.stepTimer = .running since span → span ≤ (s.part.fm.clock - since).toNat + 1 →
    s.part.cut.list = b :: rest → b ∉ rest → s.part.fm.node? b = some r → r.nextTag = some n →
    ∃ t r', exec .stepTimerExpiry s = .next t ∧ t.pending = s.pending ∧ t.part.fm.node? b = some r' ∧ r'.tag = n
      ∧ r'.nextTag = none ∧ r'.moves = min 65535 (r.moves + 1) ∧ r'.level = r.level ∧ r'.health = r.health
      ∧ (rest ≠ [] → r'.q = r.q ∧ t.part.rsq = s.part.rsq ∧ t.part.pmon = s.part.pmon ∧ t.part.afa = s.part.afa
          ∧ t.part.cbm = s.part.cbm
          ∧ (∀ b', b' ≠ b → t.part.fm.node? b' = s.part.fm.node? b')
          ∧ t.part.cut = { s.part.cut with
              list := rest, stepTimer := .running s.part.fm.clock s.part.cut.interval
              run := s.part.cut.run.map fun x => { x with moved := x.moved + 1 } }
          ∧ ∀ old new, s.part.zt.zone? r.tag = some old → s.part.zt.zone? n = some new → n ≠ r.tag →
              BayMoves b r old new s.part t.part
              ∧ Queued (if freedByLeaving old then pinsDropped s.part r.tag else []) s.part t.part)
      ∧ (rest = [] → t.part.cut =
          { s.part.cut with list := [], stepTimer := .stopped, deadline := .stopped, run := none }
          ∧ t.part.rsq.seq ≠ .cutting
          ∧ ∀ old new run f, s.part.zt.zone? r.tag = some old → s.part.zt.zone? n = some new → n ≠ r.tag →
              s.part.cut.run = some run → s.part.fm.state = .running → s.part.afa.supply = some f →
              (∃ p, BayMoves b r old new s.part p ∧ p.cbm = s.part.cbm ∧ Allocates f p t.part)
              ∧ t.part.afa = { s.part.afa with timer := .running s.part.fm.clock s.part.afa.ai }
              ∧ QueuedFirst ((if freedByLeaving old then pinsDropped s.part r.tag else [])
                  ++ [.cutoverDone run.listed (run.moved + 1) .paced (s.part.fm.clock - run.start)]) s.part t.part)

/-- R113, R121, R125, R126: the deadline's expiry only passes the deadline under STEP pacing; under VACANT pacing it moves every
remaining bay and ends the cutover with cause DEADLINE, reported before anything that the completion's allocation reports. The expiry
is taken when the whole seconds counted allow it (log entry 5). -/
def Obligations.DeadlineExpiryByPacing : Prop :=
  ∀ (limit : Nat) (run : RunRecord) (s : State), s.part.cut.deadline = .running limit → s.part.rsq.seq = .cutting →
    s.part.cut.run = some run → limit ≤ (s.part.fm.clock - run.start).toNat + 1 →
    (s.part.cut.mode = .step → ∃ t, exec .deadlineExpiry s = .next t
      ∧ t = { s with part := { s.part with slu := t.part.slu, cut := { s.part.cut with deadline := .passed } } }
      ∧ (s.part.slu.tx ≠ .idle → t.part.slu = s.part.slu))
    ∧ (s.part.cut.mode = .vacant → ∃ t, exec .deadlineExpiry s = .next t ∧ t.pending = s.pending
      ∧ t.part.cut = { s.part.cut with list := [], stepTimer := .stopped, deadline := .stopped, run := none }
      ∧ t.part.rsq.seq ≠ .cutting
      ∧ (∀ b ∈ s.part.cut.list, ∀ r n, s.part.fm.node? b = some r → r.nextTag = some n →
          ∃ r', t.part.fm.node? b = some r' ∧ r'.tag = n ∧ r'.nextTag = none ∧ r'.moves = min 65535 (r.moves + 1))
      ∧ (∀ b, b ∉ s.part.cut.list → ∀ r, s.part.fm.node? b = some r → ∃ q, t.part.fm.node? b = some { r with q := q })
      ∧ (s.part.fm.state = .running → ∀ f, s.part.afa.supply = some f →
          t.part.afa = { s.part.afa with timer := .running s.part.fm.clock s.part.afa.ai })
      ∧ (s.part.zt.pins = [] → s.part.cut.list.Nodup →
          (∀ b ∈ s.part.cut.list, ∃ r, s.part.fm.node? b = some r ∧ r.nextTag.isSome = true) →
          QueuedFirst [.cutoverDone run.listed (run.moved + s.part.cut.list.length) .deadline (s.part.fm.clock - run.start)]
            s.part t.part))

/-- R131, R132, R135: a vacancy timer's expiry makes its zone VACANT, clears manual-off, reports it and sends the members to the
standby level; no other zone changes. The expiry is taken when the whole seconds counted allow it (log entry 5). -/
def Obligations.VacancyExpiryEmptiesZone : Prop :=
  ∀ (tag : Nat) (since : Clock) (span : Nat) (z : Zone) (s : State), s.part.zt.zone? tag = some z →
    z.vacancy = .running since span → span ≤ (s.part.fm.clock - since).toNat + 1 →
    ∃ t, exec (.vacancyTimerExpiry tag) s = .next t
      ∧ t = { s with part := { s.part with slu := t.part.slu, zt := t.part.zt, fm := t.part.fm } }
      ∧ (∀ other, t.part.zt.zone? other =
          if other = tag then some { z with occupancy := .vacant, vacancy := .stopped, manualOff := false }
          else s.part.zt.zone? other)
      ∧ (s.part.fm.state = .running → ∀ b r, s.part.fm.node? b = some r → t.part.fm.node? b =
          some (if r.tag = tag then { r with target := some z.settings.standbyLevel } else r))
      ∧ (Reportable s.part.slu 9 →
          t.part.slu.queue = s.part.slu.queue ++ [⟨.occupancy tag .vacant, s.part.fm.clock⟩])

/-- R31, R137, R138: a fade tick moves each level one fade step toward its target, and hands over exactly the bays whose level byte
changed and whose last sent pair is not the new one; it changes nothing else, and nothing at all while the floor is not RUNNING. -/
def Obligations.FadeTickMovesLevels : Prop :=
  ∀ s : State,
    (s.part.fm.state ≠ .running → exec .fadeTick s = .next s)
    ∧ (s.part.fm.state = .running →
      let qmax := (s.part.fm.grid.map Grid.qmax).getD 0
      let faded : BayRec → Option Nat := fun r =>
        match r.level, r.target, s.part.zt.zone? r.tag with
        | some l, some g, some z =>
          let step := max 1 (z.settings.fadeRate / 4)
          some (if l ≤ g then (if g - l ≤ step then g else l + step) else if l - g ≤ step then g else l - step)
        | _, _, _ => r.level
      ∃ t, exec .fadeTick s = .next t
        ∧ t = { s with part := { s.part with
            fm := { s.part.fm with bays := t.part.fm.bays }
            cbm := { s.part.cbm with drivePending := t.part.cbm.drivePending } } }
        ∧ (∀ b r, s.part.fm.node? b = some r → t.part.fm.node? b = some { r with level := faded r })
        ∧ ∀ b, b ∈ t.part.cbm.drivePending ↔ b ∈ s.part.cbm.drivePending ∨ ∃ r l l', s.part.fm.node? b = some r
            ∧ r.level = some l ∧ faded r = some l' ∧ levelByte l ≠ levelByte l'
            ∧ r.lastSent ≠ some ⟨levelByte l', damperByte qmax r.q⟩)

/-- R150 to R159: the allocation interval timer's expiry runs an allocation: temperatures, heat calls, demands, the zones' grants, the bays'
grants and the hand-over of changed damper bytes, as its rules give them; the heat calls that change are reported, and the timer
restarts. The expiry is taken when the whole seconds counted allow it (log entry 5). -/
def Obligations.AllocationExpiryAllocates : Prop :=
  ∀ (since : Clock) (span f : Nat) (s : State), s.part.afa.timer = .running since span →
    span ≤ (s.part.fm.clock - since).toNat + 1 → s.part.afa.supply = some f →
    ∃ t, exec .allocationIntervalExpiry s = .next t ∧ t.pending = s.pending
      ∧ t.part.afa = { s.part.afa with timer := .running s.part.fm.clock s.part.afa.ai }
      ∧ t.part.rsq = s.part.rsq ∧ t.part.pmon = s.part.pmon ∧ t.part.cut = s.part.cut
      ∧ Allocates f s.part t.part
      ∧ (∀ b r, s.part.fm.node? b = some r → ∃ q, t.part.fm.node? b = some { r with q := q })
      ∧ (∀ tag z, s.part.zt.zone? tag = some z → z.members = 0 →
          t.part.zt.zone? tag = some { z with demand := 0, grant := 0 })
      ∧ (s.part.zt.tags.Nodup → Queued (heatCalls s.part) s.part t.part)

/-- R155 to R158: an allocation grants every zone its demand where the spare budget A covers the total excess S. Otherwise each zone is
granted n × v + floor(X × A / S), and 1 more where it is among the first r of the zones rounded down, in the order of the rows, r being
A less the sum of the shares; the grants then sum to the minimum plus A, each between its minimum and its demand. A zone's grant is
split among its members without remainder. -/
def Obligations.AllocationSpendsBudget : Prop :=
  (∀ (v spare : Nat) (rows : List AirRow), (∀ r ∈ rows, r.demand = r.n * v + r.excess) →
    let total := (rows.map AirRow.excess).sum
    let grants := zoneGrants spare rows
    let down : AirRow → Bool := fun row => row.excess * spare % total != 0
    let left := spare - (rows.map fun row => row.excess * spare / total).sum
    grants = grantsOf v spare rows
    ∧ (total ≤ spare → grants = rows.map fun r => (r.tag, r.demand))
    ∧ (spare < total → grants.length = rows.length
      ∧ (∀ (k : Nat) (row : AirRow), rows[k]? = some row → grants[k]? = some (row.tag,
          row.n * v + row.excess * spare / total + if down row ∧ ((rows.take k).filter down).length < left then 1 else 0))
      ∧ (grants.map Prod.snd).sum = (rows.map fun r => r.n * v).sum + spare
      ∧ ∀ x ∈ grants.zip rows, x.2.n * v ≤ x.1.2 ∧ x.1.2 ≤ x.2.demand))
  ∧ ∀ (grant n : Nat), 0 < n →
    ((List.range n).map (bayGrant grant n)).sum = grant
    ∧ ∀ place, place < n → bayGrant grant n place = if place < grant % n then grant / n + 1 else grant / n

/-- 00_scope.md section 0.4: a second of the floor clock, wrapping modulo 2^32, changes nothing else. -/
def Obligations.FloorClockTickCountsSecond : Prop :=
  ∀ s : State, exec .floorClockTick s =
    .next { s with part := { s.part with fm := { s.part.fm with
      clock := BitVec.ofNat 32 ((s.part.fm.clock.toNat + 1) % 4294967296) } } }

/-! ### Invariants -/

/-- Every step keeps the link's records in agreement. -/
def Obligations.StepKeepsLinkInv : Prop := ∀ s t : State, LinkInv s.part → step s = .next t → LinkInv t.part

/-- R31, R42, R48: every step keeps the parameters in their ranges, the FIXED edges as they are and the SENSED edges' effective states
as R42 gives them; it keeps the net change set the edges that differ from the baseline, and the drive-pending set an ascending set of
ROOMABLE bays. -/
def Obligations.StepKeepsParametersAndEdges : Prop :=
  (∀ s t : State, ParameterRanges s.part → step s = .next t → ParameterRanges t.part)
  ∧ (∀ s t : State, EdgesValid s.part → step s = .next t → EdgesValid t.part)
  ∧ (∀ s t : State, NetChangeLaws s.part → step s = .next t → NetChangeLaws t.part)
  ∧ ∀ s t : State, PendingLaws s.part → step s = .next t → PendingLaws t.part

/-- R86, R89, R98, R110, R111, R147, R160: every step keeps the zones' settings, tags and counts and the bays' levels in their ranges; it
keeps the zone table, the bays' tags and the cutover list in agreement; and it keeps the supply budget and the grants within it. The two
last are kept where the net change laws hold too (a running solve has a floor, and is an initial one exactly in the survey). -/
def Obligations.StepKeepsZonesValid : Prop :=
  (∀ s t : State, ZonesValid s.part → step s = .next t → ZonesValid t.part)
  ∧ (∀ s t : State, ZonesValid s.part → NetChangeLaws s.part → ZoneLaws s.part → step s = .next t → ZoneLaws t.part)
  ∧ ∀ s t : State, ZonesValid s.part → NetChangeLaws s.part → ZoneLaws s.part → SupplyLaws s.part → step s = .next t →
      SupplyLaws t.part

/-- The eight invariants hold at reset. -/
def Obligations.InvariantsHoldAtReset : Prop :=
  LinkInv State.reset.part ∧ ParameterRanges State.reset.part ∧ ZonesValid State.reset.part ∧ EdgesValid State.reset.part
    ∧ NetChangeLaws State.reset.part ∧ ZoneLaws State.reset.part ∧ SupplyLaws State.reset.part ∧ PendingLaws State.reset.part
end

