-- ==== Sys2Proof/Laws/State.lean ====
section
/-! SUPPORT. What each rewriting of one block of the part leaves of every block: one lemma per field per update. -/

namespace Sys2Proof.Machine

section
variable (g : Slu → Slu) (p : Part)
@[simp] theorem Part.mapSlu_slu : (p.mapSlu g).slu = g p.slu := rfl
@[simp] theorem Part.mapSlu_cbm : (p.mapSlu g).cbm = p.cbm := rfl
@[simp] theorem Part.mapSlu_fm : (p.mapSlu g).fm = p.fm := rfl
@[simp] theorem Part.mapSlu_pmon : (p.mapSlu g).pmon = p.pmon := rfl
@[simp] theorem Part.mapSlu_rsq : (p.mapSlu g).rsq = p.rsq := rfl
@[simp] theorem Part.mapSlu_zt : (p.mapSlu g).zt = p.zt := rfl
@[simp] theorem Part.mapSlu_cut : (p.mapSlu g).cut = p.cut := rfl
@[simp] theorem Part.mapSlu_afa : (p.mapSlu g).afa = p.afa := rfl
@[simp] theorem Part.mapSlu_fresh : (p.mapSlu g).fresh = p.fresh := rfl
end

section
variable (g : Cbm → Cbm) (p : Part)
@[simp] theorem Part.mapCbm_slu : (p.mapCbm g).slu = p.slu := rfl
@[simp] theorem Part.mapCbm_cbm : (p.mapCbm g).cbm = g p.cbm := rfl
@[simp] theorem Part.mapCbm_fm : (p.mapCbm g).fm = p.fm := rfl
@[simp] theorem Part.mapCbm_pmon : (p.mapCbm g).pmon = p.pmon := rfl
@[simp] theorem Part.mapCbm_rsq : (p.mapCbm g).rsq = p.rsq := rfl
@[simp] theorem Part.mapCbm_zt : (p.mapCbm g).zt = p.zt := rfl
@[simp] theorem Part.mapCbm_cut : (p.mapCbm g).cut = p.cut := rfl
@[simp] theorem Part.mapCbm_afa : (p.mapCbm g).afa = p.afa := rfl
@[simp] theorem Part.mapCbm_fresh : (p.mapCbm g).fresh = p.fresh := rfl
end

section
variable (g : FloorModel → FloorModel) (p : Part)
@[simp] theorem Part.mapFm_slu : (p.mapFm g).slu = p.slu := rfl
@[simp] theorem Part.mapFm_cbm : (p.mapFm g).cbm = p.cbm := rfl
@[simp] theorem Part.mapFm_fm : (p.mapFm g).fm = g p.fm := rfl
@[simp] theorem Part.mapFm_pmon : (p.mapFm g).pmon = p.pmon := rfl
@[simp] theorem Part.mapFm_rsq : (p.mapFm g).rsq = p.rsq := rfl
@[simp] theorem Part.mapFm_zt : (p.mapFm g).zt = p.zt := rfl
@[simp] theorem Part.mapFm_cut : (p.mapFm g).cut = p.cut := rfl
@[simp] theorem Part.mapFm_afa : (p.mapFm g).afa = p.afa := rfl
@[simp] theorem Part.mapFm_fresh : (p.mapFm g).fresh = p.fresh := rfl
end

section
variable (g : Pmon → Pmon) (p : Part)
@[simp] theorem Part.mapPmon_slu : (p.mapPmon g).slu = p.slu := rfl
@[simp] theorem Part.mapPmon_cbm : (p.mapPmon g).cbm = p.cbm := rfl
@[simp] theorem Part.mapPmon_fm : (p.mapPmon g).fm = p.fm := rfl
@[simp] theorem Part.mapPmon_pmon : (p.mapPmon g).pmon = g p.pmon := rfl
@[simp] theorem Part.mapPmon_rsq : (p.mapPmon g).rsq = p.rsq := rfl
@[simp] theorem Part.mapPmon_zt : (p.mapPmon g).zt = p.zt := rfl
@[simp] theorem Part.mapPmon_cut : (p.mapPmon g).cut = p.cut := rfl
@[simp] theorem Part.mapPmon_afa : (p.mapPmon g).afa = p.afa := rfl
@[simp] theorem Part.mapPmon_fresh : (p.mapPmon g).fresh = p.fresh := rfl
end

section
variable (g : Rsq → Rsq) (p : Part)
@[simp] theorem Part.mapRsq_slu : (p.mapRsq g).slu = p.slu := rfl
@[simp] theorem Part.mapRsq_cbm : (p.mapRsq g).cbm = p.cbm := rfl
@[simp] theorem Part.mapRsq_fm : (p.mapRsq g).fm = p.fm := rfl
@[simp] theorem Part.mapRsq_pmon : (p.mapRsq g).pmon = p.pmon := rfl
@[simp] theorem Part.mapRsq_rsq : (p.mapRsq g).rsq = g p.rsq := rfl
@[simp] theorem Part.mapRsq_zt : (p.mapRsq g).zt = p.zt := rfl
@[simp] theorem Part.mapRsq_cut : (p.mapRsq g).cut = p.cut := rfl
@[simp] theorem Part.mapRsq_afa : (p.mapRsq g).afa = p.afa := rfl
@[simp] theorem Part.mapRsq_fresh : (p.mapRsq g).fresh = p.fresh := rfl
end

section
variable (g : Zt → Zt) (p : Part)
@[simp] theorem Part.mapZt_slu : (p.mapZt g).slu = p.slu := rfl
@[simp] theorem Part.mapZt_cbm : (p.mapZt g).cbm = p.cbm := rfl
@[simp] theorem Part.mapZt_fm : (p.mapZt g).fm = p.fm := rfl
@[simp] theorem Part.mapZt_pmon : (p.mapZt g).pmon = p.pmon := rfl
@[simp] theorem Part.mapZt_rsq : (p.mapZt g).rsq = p.rsq := rfl
@[simp] theorem Part.mapZt_zt : (p.mapZt g).zt = g p.zt := rfl
@[simp] theorem Part.mapZt_cut : (p.mapZt g).cut = p.cut := rfl
@[simp] theorem Part.mapZt_afa : (p.mapZt g).afa = p.afa := rfl
@[simp] theorem Part.mapZt_fresh : (p.mapZt g).fresh = p.fresh := rfl
end

section
variable (g : Cut → Cut) (p : Part)
@[simp] theorem Part.mapCut_slu : (p.mapCut g).slu = p.slu := rfl
@[simp] theorem Part.mapCut_cbm : (p.mapCut g).cbm = p.cbm := rfl
@[simp] theorem Part.mapCut_fm : (p.mapCut g).fm = p.fm := rfl
@[simp] theorem Part.mapCut_pmon : (p.mapCut g).pmon = p.pmon := rfl
@[simp] theorem Part.mapCut_rsq : (p.mapCut g).rsq = p.rsq := rfl
@[simp] theorem Part.mapCut_zt : (p.mapCut g).zt = p.zt := rfl
@[simp] theorem Part.mapCut_cut : (p.mapCut g).cut = g p.cut := rfl
@[simp] theorem Part.mapCut_afa : (p.mapCut g).afa = p.afa := rfl
@[simp] theorem Part.mapCut_fresh : (p.mapCut g).fresh = p.fresh := rfl
end

section
variable (g : Afa → Afa) (p : Part)
@[simp] theorem Part.mapAfa_slu : (p.mapAfa g).slu = p.slu := rfl
@[simp] theorem Part.mapAfa_cbm : (p.mapAfa g).cbm = p.cbm := rfl
@[simp] theorem Part.mapAfa_fm : (p.mapAfa g).fm = p.fm := rfl
@[simp] theorem Part.mapAfa_pmon : (p.mapAfa g).pmon = p.pmon := rfl
@[simp] theorem Part.mapAfa_rsq : (p.mapAfa g).rsq = p.rsq := rfl
@[simp] theorem Part.mapAfa_zt : (p.mapAfa g).zt = p.zt := rfl
@[simp] theorem Part.mapAfa_cut : (p.mapAfa g).cut = p.cut := rfl
@[simp] theorem Part.mapAfa_afa : (p.mapAfa g).afa = g p.afa := rfl
@[simp] theorem Part.mapAfa_fresh : (p.mapAfa g).fresh = p.fresh := rfl
end

section
variable (b : Nat) (g : BayRec → BayRec) (p : Part)
@[simp] theorem Part.modifyNode_slu : (p.modifyNode b g).slu = p.slu := rfl
@[simp] theorem Part.modifyNode_cbm : (p.modifyNode b g).cbm = p.cbm := rfl
@[simp] theorem Part.modifyNode_fm : (p.modifyNode b g).fm = p.fm.modifyNode b g := rfl
@[simp] theorem Part.modifyNode_pmon : (p.modifyNode b g).pmon = p.pmon := rfl
@[simp] theorem Part.modifyNode_rsq : (p.modifyNode b g).rsq = p.rsq := rfl
@[simp] theorem Part.modifyNode_zt : (p.modifyNode b g).zt = p.zt := rfl
@[simp] theorem Part.modifyNode_cut : (p.modifyNode b g).cut = p.cut := rfl
@[simp] theorem Part.modifyNode_afa : (p.modifyNode b g).afa = p.afa := rfl
@[simp] theorem Part.modifyNode_fresh : (p.modifyNode b g).fresh = p.fresh := rfl
end

@[simp] theorem Part.draw_slu (p : Part) : p.draw.slu = p.slu := rfl
@[simp] theorem Part.draw_cbm (p : Part) : p.draw.cbm = p.cbm := rfl
@[simp] theorem Part.draw_fm (p : Part) : p.draw.fm = p.fm := rfl
@[simp] theorem Part.draw_pmon (p : Part) : p.draw.pmon = p.pmon := rfl
@[simp] theorem Part.draw_rsq (p : Part) : p.draw.rsq = p.rsq := rfl
@[simp] theorem Part.draw_zt (p : Part) : p.draw.zt = p.zt := rfl
@[simp] theorem Part.draw_cut (p : Part) : p.draw.cut = p.cut := rfl
@[simp] theorem Part.draw_afa (p : Part) : p.draw.afa = p.afa := rfl
@[simp] theorem Part.draw_fresh (p : Part) : p.draw.fresh = p.fresh + 1 := rfl

@[simp] theorem FloorModel.mapNodes_state (g : Nat → BayRec → BayRec) (f : FloorModel) : (f.mapNodes g).state = f.state := rfl
@[simp] theorem FloorModel.modifyNode_state (b : Nat) (g : BayRec → BayRec) (f : FloorModel) : (f.modifyNode b g).state = f.state := rfl
@[simp] theorem FloorModel.mapNodes_grid (g : Nat → BayRec → BayRec) (f : FloorModel) : (f.mapNodes g).grid = f.grid := rfl
@[simp] theorem FloorModel.modifyNode_grid (b : Nat) (g : BayRec → BayRec) (f : FloorModel) : (f.modifyNode b g).grid = f.grid := rfl
@[simp] theorem FloorModel.mapNodes_nr (g : Nat → BayRec → BayRec) (f : FloorModel) : (f.mapNodes g).nr = f.nr := rfl
@[simp] theorem FloorModel.modifyNode_nr (b : Nat) (g : BayRec → BayRec) (f : FloorModel) : (f.modifyNode b g).nr = f.nr := rfl
@[simp] theorem FloorModel.mapNodes_spine (g : Nat → BayRec → BayRec) (f : FloorModel) : (f.mapNodes g).spine = f.spine := rfl
@[simp] theorem FloorModel.modifyNode_spine (b : Nat) (g : BayRec → BayRec) (f : FloorModel) : (f.modifyNode b g).spine = f.spine := rfl
@[simp] theorem FloorModel.mapNodes_rl (g : Nat → BayRec → BayRec) (f : FloorModel) : (f.mapNodes g).rl = f.rl := rfl
@[simp] theorem FloorModel.modifyNode_rl (b : Nat) (g : BayRec → BayRec) (f : FloorModel) : (f.modifyNode b g).rl = f.rl := rfl
@[simp] theorem FloorModel.mapNodes_clock (g : Nat → BayRec → BayRec) (f : FloorModel) : (f.mapNodes g).clock = f.clock := rfl
@[simp] theorem FloorModel.modifyNode_clock (b : Nat) (g : BayRec → BayRec) (f : FloorModel) : (f.modifyNode b g).clock = f.clock := rfl
@[simp] theorem FloorModel.mapNodes_surveyRounds (g : Nat → BayRec → BayRec) (f : FloorModel) : (f.mapNodes g).surveyRounds = f.surveyRounds := rfl
@[simp] theorem FloorModel.modifyNode_surveyRounds (b : Nat) (g : BayRec → BayRec) (f : FloorModel) : (f.modifyNode b g).surveyRounds = f.surveyRounds := rfl
@[simp] theorem FloorModel.mapNodes_surveyOver (g : Nat → BayRec → BayRec) (f : FloorModel) : (f.mapNodes g).surveyOver = f.surveyOver := rfl
@[simp] theorem FloorModel.modifyNode_surveyOver (b : Nat) (g : BayRec → BayRec) (f : FloorModel) : (f.modifyNode b g).surveyOver = f.surveyOver := rfl

@[simp] theorem Pmon.modifyEdge_baseline (e : Nat) (g : Edge → Edge) (m : Pmon) : (m.modifyEdge e g).baseline = m.baseline := rfl
@[simp] theorem Pmon.modifyEdge_netChange (e : Nat) (g : Edge → Edge) (m : Pmon) : (m.modifyEdge e g).netChange = m.netChange := rfl
@[simp] theorem Pmon.modifyEdge_monitor (e : Nat) (g : Edge → Edge) (m : Pmon) : (m.modifyEdge e g).monitor = m.monitor := rfl
@[simp] theorem Pmon.modifyEdge_quiet (e : Nat) (g : Edge → Edge) (m : Pmon) : (m.modifyEdge e g).quiet = m.quiet := rfl
@[simp] theorem Pmon.modifyEdge_owed (e : Nat) (g : Edge → Edge) (m : Pmon) : (m.modifyEdge e g).owed = m.owed := rfl
@[simp] theorem Pmon.modifyEdge_auto (e : Nat) (g : Edge → Edge) (m : Pmon) : (m.modifyEdge e g).auto = m.auto := rfl
@[simp] theorem Pmon.modifyEdge_qt (e : Nat) (g : Edge → Edge) (m : Pmon) : (m.modifyEdge e g).qt = m.qt := rfl
@[simp] theorem Pmon.modifyEdge_changed (e : Nat) (g : Edge → Edge) (m : Pmon) : (m.modifyEdge e g).changed = m.changed := rfl

@[simp] theorem Zt.mapZones_nextTag (g : Zone → Zone) (t : Zt) : (t.mapZones g).nextTag = t.nextTag := rfl
@[simp] theorem Zt.modifyZone_nextTag (tag : Nat) (g : Zone → Zone) (t : Zt) : (t.modifyZone tag g).nextTag = t.nextTag := rfl
@[simp] theorem Zt.mapZones_pins (g : Zone → Zone) (t : Zt) : (t.mapZones g).pins = t.pins := rfl
@[simp] theorem Zt.modifyZone_pins (tag : Nat) (g : Zone → Zone) (t : Zt) : (t.modifyZone tag g).pins = t.pins := rfl

end Sys2Proof.Machine
end

