-- ==== Sys2Proof/Laws/Ops.lean ====
section
/-! SUPPORT. What the shared operations over bays, edges, zones and sets do, said once for the proofs that use them. -/

namespace Sys2Proof.Machine

/-! ### Numbered lists -/

theorem mapFrom_getElem? {α β : Type} (f : Nat → α → β) (l : List α) (n i : Nat) :
    (mapFrom n f l)[i]? = (l[i]?).map (f (n + i)) := by
  induction l generalizing n i with
  | nil => simp [mapFrom]
  | cons a as ih =>
    cases i with
    | zero => simp [mapFrom]
    | succ i => simp only [mapFrom, List.getElem?_cons_succ, ih]; congr 2; omega

@[simp] theorem mapFrom_length {α β : Type} (f : Nat → α → β) (l : List α) (n : Nat) :
    (mapFrom n f l).length = l.length := by
  induction l generalizing n with
  | nil => rfl
  | cons a as ih => simp [mapFrom, ih]

theorem mem_pickFrom {α β : Type} (f : Nat → α → Option β) (l : List α) (n : Nat) (x : β) :
    x ∈ pickFrom n f l ↔ ∃ i a, l[i]? = some a ∧ f (n + i) a = some x := by
  induction l generalizing n with
  | nil => simp [pickFrom]
  | cons a as ih =>
    have split : (∃ i a', (a :: as)[i]? = some a' ∧ f (n + i) a' = some x) ↔
        f n a = some x ∨ ∃ i a', as[i]? = some a' ∧ f (n + 1 + i) a' = some x := by
      constructor
      · rintro ⟨i, a', hi, hf⟩
        cases i with
        | zero => simp at hi; subst hi; exact .inl hf
        | succ i => exact .inr ⟨i, a', by simpa using hi, by rw [← hf]; congr 1; omega⟩
      · rintro (hf | ⟨i, a', hi, hf⟩)
        · exact ⟨0, a, by simp, hf⟩
        · exact ⟨i + 1, a', by simpa using hi, by rw [← hf]; congr 1; omega⟩
    rw [split]
    unfold pickFrom
    cases h : f n a with
    | none => simp [ih]
    | some y => simp [ih, eq_comm]

/-- A choice whose results carry their own numbers lists them in strictly rising order. -/
theorem pickFrom_sorted {α β : Type} (f : Nat → α → Option β) (key : β → Nat)
    (carries : ∀ n a x, f n a = some x → key x = n) (l : List α) (n : Nat) :
    ((pickFrom n f l).map key).Pairwise (· < ·) := by
  induction l generalizing n with
  | nil => simp [pickFrom]
  | cons a as ih =>
    unfold pickFrom
    cases h : f n a with
    | none => exact ih _
    | some y =>
      simp only [List.map_cons, List.pairwise_cons]
      refine ⟨?_, ih _⟩
      intro k hk
      obtain ⟨x, hx, rfl⟩ := List.mem_map.1 hk
      obtain ⟨i, a', _, hf⟩ := (mem_pickFrom ..).1 hx
      rw [carries _ _ _ h, carries _ _ _ hf]; omega

/-! ### Sets of numbers -/

@[simp] theorem mem_insertSet (x y : Nat) (s : List Nat) : y ∈ insertSet x s ↔ y = x ∨ y ∈ s := by
  induction s with
  | nil => simp [insertSet]
  | cons z zs ih =>
    unfold insertSet
    split
    · simp
    · split
      · next h => subst h; simp
      · simp [ih, or_left_comm]

@[simp] theorem mem_removeSet (x y : Nat) (s : List Nat) : y ∈ removeSet x s ↔ y ∈ s ∧ y ≠ x := by
  simp [removeSet]

theorem insertSet_sorted (x : Nat) (s : List Nat) (h : s.Pairwise (· < ·)) : (insertSet x s).Pairwise (· < ·) := by
  induction s with
  | nil => simp [insertSet]
  | cons z zs ih =>
    have hz := List.pairwise_cons.1 h
    unfold insertSet
    split
    · next hx =>
      refine List.pairwise_cons.2 ⟨?_, h⟩
      intro a ha
      rcases List.mem_cons.1 ha with rfl | ha
      · exact hx
      · exact Nat.lt_trans hx (hz.1 a ha)
    · split
      · exact h
      · refine List.pairwise_cons.2 ⟨?_, ih hz.2⟩
        intro a ha
        rcases (mem_insertSet ..).1 ha with rfl | ha
        · omega
        · exact hz.1 a ha

/-! ### Bays -/

@[simp] theorem FloorModel.bay?_mapNodes (g : Nat → BayRec → BayRec) (f : FloorModel) (b : Nat) :
    (f.mapNodes g).bay? b = (f.bay? b).map (Bay.mapRec (g b)) := by
  unfold bay? mapNodes
  split
  · rfl
  · next h =>
    simp only [mapFrom_getElem?]
    rw [show 1 + (b - 1) = b by omega]

@[simp] theorem FloorModel.node?_mapNodes (g : Nat → BayRec → BayRec) (f : FloorModel) (b : Nat) :
    (f.mapNodes g).node? b = (f.node? b).map (g b) := by
  unfold node?
  rw [bay?_mapNodes]
  cases h : f.bay? b with
  | none => rfl
  | some x => cases x <;> rfl

@[simp] theorem FloorModel.node?_modifyNode (b' : Nat) (g : BayRec → BayRec) (f : FloorModel) (b : Nat) :
    (f.modifyNode b' g).node? b = if b = b' then (f.node? b).map g else f.node? b := by
  unfold modifyNode
  rw [node?_mapNodes]
  split
  · next h => rfl
  · next h => simp

theorem FloorModel.mem_nodes (f : FloorModel) (b : Nat) (r : BayRec) : (b, r) ∈ f.nodes ↔ f.node? b = some r := by
  unfold nodes
  rw [mem_pickFrom]
  constructor
  · rintro ⟨i, a, hi, hf⟩
    cases a with
    | core => simp at hf
    | roomable r' =>
      simp only [Option.some.injEq, Prod.mk.injEq] at hf
      obtain ⟨rfl, rfl⟩ := hf
      simp [node?, bay?, hi]
  · intro h
    unfold node? bay? at h
    split at h
    · next r' h' =>
      split at h'
      · simp at h'
      · exact ⟨b - 1, .roomable r', h', by simp at h; subst h; simp; omega⟩
    · simp at h
    · simp at h

theorem FloorModel.nodes_sorted (f : FloorModel) : (f.nodes.map Prod.fst).Pairwise (· < ·) := by
  unfold nodes
  refine pickFrom_sorted _ _ ?_ _ _
  intro n a x h
  cases a with
  | core => simp at h
  | roomable r => simp at h; simp [← h]

theorem FloorModel.mem_roomable (f : FloorModel) (b : Nat) : b ∈ f.roomable ↔ (f.node? b).isSome = true := by
  unfold roomable
  simp only [List.mem_map, Prod.exists, exists_and_right, exists_eq_right]
  constructor
  · rintro ⟨r, hr⟩
    simp [(f.mem_nodes b r).1 hr]
  · intro h
    obtain ⟨r, hr⟩ := Option.isSome_iff_exists.1 h
    exact ⟨r, (f.mem_nodes b r).2 hr⟩

/-! ### Edges -/

@[simp] theorem Pmon.edge?_modifyEdge (e' : Nat) (g : Edge → Edge) (m : Pmon) (e : Nat) :
    (m.modifyEdge e' g).edge? e = if e = e' then (m.edge? e).map g else m.edge? e := by
  unfold edge? modifyEdge
  by_cases h : e = 0
  · simp [h]
  · simp only [h, ↓reduceIte, mapFrom_getElem?]
    rw [show 1 + (e - 1) = e by omega]
    split <;> simp

/-! ### Zones -/

@[simp] theorem Zt.zones_mapZones (g : Zone → Zone) (t : Zt) : (t.mapZones g).zones = t.zones.map g := by
  unfold zones mapZones
  induction t.slots with
  | nil => rfl
  | cons o os ih => cases o <;> simp_all

/-- A rewriting that keeps tags is seen by looking a zone up before it. -/
theorem Zt.zone?_mapZones (g : Zone → Zone) (keeps : ∀ z, (g z).tag = z.tag) (t : Zt) (tag : Nat) :
    (t.mapZones g).zone? tag = (t.zone? tag).map g := by
  unfold zone?
  rw [zones_mapZones]
  induction t.zones with
  | nil => rfl
  | cons z zs ih =>
    simp only [List.map_cons, List.find?_cons, keeps]
    split <;> simp_all

theorem Zt.zone?_tag (t : Zt) (tag : Nat) (z : Zone) (h : t.zone? tag = some z) : z.tag = tag := by
  have := List.find?_some h
  simpa using this

theorem Zt.zone?_modifyZone (tag : Nat) (g : Zone → Zone) (keeps : ∀ z, (g z).tag = z.tag) (t : Zt) (other : Nat) :
    (t.modifyZone tag g).zone? other = if other = tag then (t.zone? tag).map g else t.zone? other := by
  unfold modifyZone
  rw [zone?_mapZones _ (by intro z; split <;> simp [keeps])]
  cases h : t.zone? other with
  | none => split <;> simp_all
  | some z =>
    have hz := t.zone?_tag other z h
    split
    · next heq => subst heq; simp [h, hz]
    · next hne => simp [hz, hne]

/-- R98: a zone's members are the ROOMABLE bays with its tag. -/
theorem FloorModel.mem_membersOf (f : FloorModel) (tag b : Nat) :
    b ∈ f.membersOf tag ↔ ∃ r, f.node? b = some r ∧ r.tag = tag := by
  simp only [FloorModel.membersOf, List.mem_map, List.mem_filter, decide_eq_true_eq]
  constructor
  · rintro ⟨⟨b', r⟩, ⟨h, ht⟩, rfl⟩
    exact ⟨r, (f.mem_nodes _ _).1 h, ht⟩
  · rintro ⟨r, h, ht⟩
    exact ⟨(b, r), ⟨(f.mem_nodes _ _).2 h, ht⟩, rfl⟩

end Sys2Proof.Machine
end

