-- ==== Sys2Proof/Laws/Link.lean ====
section
/-! SUPPORT. What the link's shared operations do: raising a report, placing a reply, choosing a frame, taking a request. -/

namespace Sys2Proof.Machine

/-! ### Reports -/

/-- Raising a report touches the link's queue and lost flag alone. -/
theorem Slu.raise_keeps (u : Slu) (r : Report) (c : Clock) :
    (u.raise r c).assembler = u.assembler ∧ (u.raise r c).inFlight = u.inFlight ∧ (u.raise r c).replySlot = u.replySlot
      ∧ (u.raise r c).overlapSlot = u.overlapSlot ∧ (u.raise r c).overlapFirst = u.overlapFirst
      ∧ (u.raise r c).tx = u.tx ∧ (u.raise r c).mask = u.mask ∧ (u.raise r c).restartOwed = u.restartOwed := by
  unfold raise; split
  · split <;> simp
  · simp

theorem Slu.raise_queue (u : Slu) (r : Report) (c : Clock) (h : Enabled u r.code) (room : u.queue.length < 16) :
    u.raise r c = { u with queue := u.queue ++ [⟨r, c⟩] } := by
  have on : u.enables r = true := h
  simp [raise, on, show ¬ 16 ≤ u.queue.length by omega]

/-- A queued record stays at its place while more are queued behind it. -/
theorem Slu.raise_queue_getElem? (u : Slu) (r : Report) (c : Clock) (i : Nat) (x : Record) (h : u.queue[i]? = some x) :
    (u.raise r c).queue[i]? = some x := by
  unfold raise
  split
  · split
    · exact h
    · have := (List.getElem?_eq_some_iff.1 h).1
      simp [List.getElem?_append_left this, h]
  · exact h

theorem Slu.raise_length (u : Slu) (r : Report) (c : Clock) (h : u.queue.length ≤ 16) : (u.raise r c).queue.length ≤ 16 := by
  unfold raise
  split
  · split
    · exact h
    · simp; omega
  · exact h

section
variable (r : Report) (p : Part)
@[simp] theorem Part.raise_slu : (p.raise r).slu = p.slu.raise r p.fm.clock := rfl
@[simp] theorem Part.raise_cbm : (p.raise r).cbm = p.cbm := rfl
@[simp] theorem Part.raise_fm : (p.raise r).fm = p.fm := rfl
@[simp] theorem Part.raise_pmon : (p.raise r).pmon = p.pmon := rfl
@[simp] theorem Part.raise_rsq : (p.raise r).rsq = p.rsq := rfl
@[simp] theorem Part.raise_zt : (p.raise r).zt = p.zt := rfl
@[simp] theorem Part.raise_cut : (p.raise r).cut = p.cut := rfl
@[simp] theorem Part.raise_afa : (p.raise r).afa = p.afa := rfl
@[simp] theorem Part.raise_fresh : (p.raise r).fresh = p.fresh := rfl
end

/-- R172: reports that are all enabled and find room are queued in order. -/
theorem Part.raiseAll_slu (rs : List Report) (p : Part) (on : ∀ r ∈ rs, Enabled p.slu r.code)
    (room : p.slu.queue.length + rs.length ≤ 16) :
    (p.raiseAll rs).slu = { p.slu with queue := p.slu.queue ++ rs.map fun r => ⟨r, p.fm.clock⟩ } := by
  induction rs generalizing p with
  | nil => simp [Part.raiseAll]
  | cons r rs ih =>
    have e : (p.raise r).slu = { p.slu with queue := p.slu.queue ++ [⟨r, p.fm.clock⟩] } :=
      Slu.raise_queue _ _ _ (on r (List.mem_cons_self ..)) (by simp at room; omega)
    have := ih (p.raise r) (fun x hx => by rw [e]; exact on x (List.mem_cons_of_mem _ hx))
      (by rw [e]; simp at room ⊢; omega)
    rw [show p.raiseAll (r :: rs) = (p.raise r).raiseAll rs from rfl, this, e]
    simp

/-! ### The transmitter's choice -/

section
variable (p : Part)
@[simp] theorem Part.choose_slu : p.choose.slu = p.slu.choose := rfl
@[simp] theorem Part.choose_cbm : p.choose.cbm = p.cbm := rfl
@[simp] theorem Part.choose_fm : p.choose.fm = p.fm := rfl
@[simp] theorem Part.choose_pmon : p.choose.pmon = p.pmon := rfl
@[simp] theorem Part.choose_rsq : p.choose.rsq = p.rsq := rfl
@[simp] theorem Part.choose_zt : p.choose.zt = p.zt := rfl
@[simp] theorem Part.choose_cut : p.choose.cut = p.cut := rfl
@[simp] theorem Part.choose_afa : p.choose.afa = p.afa := rfl
@[simp] theorem Part.choose_fresh : p.choose.fresh = p.fresh := rfl
end

/-- A busy transmitter makes no choice. -/
theorem Slu.choose_busy (u : Slu) (h : u.tx ≠ .idle) : u.choose = u := by
  unfold choose; split
  · rfl
  · next h' => exact absurd h' h

/-- The choice touches neither the assembler, the request in flight, the reply slot, the mask nor an owed restart. -/
theorem Slu.choose_keeps (u : Slu) :
    u.choose.assembler = u.assembler ∧ u.choose.inFlight = u.inFlight ∧ u.choose.replySlot = u.replySlot
      ∧ u.choose.mask = u.mask ∧ u.choose.restartOwed = u.restartOwed := by
  unfold choose
  split
  · simp
  · split
    · next source f _ => cases source <;> simp [begin]
    · unfold beginReport
      split <;> simp [begin]

/-! ### Requests -/

/-- A reply placed for the request in flight, and the choice that follows. -/
theorem Slu.placeReply_choose (u : Slu) (kind number : Byte) (r : Reply) (h : u.inFlight = some ⟨kind, number⟩) :
    (u.placeReply r).choose.assembler = u.assembler ∧ (u.placeReply r).choose.inFlight = some ⟨kind, number⟩
      ∧ (u.placeReply r).choose.replySlot = some (r.frame kind number) ∧ LinkKeeps u (u.placeReply r).choose := by
  obtain ⟨asm, fl, owed, slot, ov, ovf, tx, q, mask, lost⟩ := u
  simp only at h
  subst h
  cases tx with
  | sending s f => simp [placeReply, choose, LinkKeeps]
  | idle => cases ov <;> simp [placeReply, choose, LinkKeeps, nextReply, begin]

/-- R168: a request arriving with none in flight is handled, its reply is placed, and the transmitter chooses. -/
theorem Part.takeRequest_taken (kind number : Byte) (handle : Part → Part × Reply) (p : Part) (h : p.slu.inFlight = none) :
    p.takeRequest kind number (replying handle) =
      (((handle { p with slu := { p.slu with assembler := .hunting, inFlight := some ⟨kind, number⟩ } }).1).placeReply
        (handle { p with slu := { p.slu with assembler := .hunting, inFlight := some ⟨kind, number⟩ } }).2).choose := by
  simp [takeRequest, replying, Part.mapSlu, h]

/-- A request whose handling leaves the link alone: the reply it makes, and the blocks it leaves. -/
theorem takeRequest_answers (kind number : Byte) (handle : Part → Part × Reply) (s : State) (q : Part) (status : Status)
    (detail : Nat) (fields : List Byte) (free : s.part.slu.inFlight = none)
    (handled : handle { s.part with slu := { s.part.slu with assembler := .hunting, inFlight := some ⟨kind, number⟩ } }
      = (q, ⟨status, detail, fields⟩))
    (link : q.slu = { s.part.slu with assembler := .hunting, inFlight := some ⟨kind, number⟩ }) :
    ∃ t, Host.Outcome.next (φ := Fault) (ρ := Refusal)
          { s with part := s.part.takeRequest kind number (replying handle) } = .next t
      ∧ Answers kind number status detail fields t ∧ LinkKeeps s.part.slu t.part.slu
      ∧ t = { s with part := { q with slu := t.part.slu } } := by
  refine ⟨_, rfl, ?_⟩
  rw [Part.takeRequest_taken _ _ _ _ free, handled]
  obtain ⟨slu, cbm, fm, pmon, rsq, zt, cut, afa, fresh⟩ := q
  subst link
  obtain ⟨h1, h2, h3, h4⟩ := Slu.placeReply_choose
    { s.part.slu with assembler := .hunting, inFlight := some ⟨kind, number⟩ } kind number ⟨status, detail, fields⟩ rfl
  exact ⟨⟨h1, h2, h3⟩, h4, rfl⟩

/-- A request whose handling changes nothing. -/
theorem takeRequest_answersOnly (kind number : Byte) (handle : Part → Part × Reply) (s : State) (status : Status)
    (detail : Nat) (fields : List Byte) (free : s.part.slu.inFlight = none)
    (handled : ∀ p : Part, p = { s.part with slu := { s.part.slu with assembler := .hunting, inFlight := some ⟨kind, number⟩ } } →
      handle p = (p, ⟨status, detail, fields⟩)) :
    ∃ t, Host.Outcome.next (φ := Fault) (ρ := Refusal)
          { s with part := s.part.takeRequest kind number (replying handle) } = .next t
      ∧ AnswersOnly kind number status detail fields s t := by
  obtain ⟨t, h1, h2, h3, h4⟩ := takeRequest_answers kind number handle s _ status detail fields free (handled _ rfl) rfl
  exact ⟨t, h1, h4, h2, h3⟩

end Sys2Proof.Machine
end

