-- ==== Sys2Proof/Laws/Blocks.lean ====
section
/-! SUPPORT. Which blocks each shared operation leaves alone: one lemma per operation and block it does not touch; and what the
freeing of a zone, the moving of the deadline, a usable temperature and the joining of the drive-pending set are. -/

namespace Sys2Proof.Machine

/-- A fold keeps what each of its steps keeps. -/
theorem foldl_keeps {α β γ : Type} (f : α → β → α) (get : α → γ) (keeps : ∀ a b, get (f a b) = get a) (l : List β) (a : α) :
    get (l.foldl f a) = get a := by
  induction l generalizing a with
  | nil => rfl
  | cons b bs ih => simp [ih, keeps]

section
variable (p : Part)

@[simp] theorem Part.joinPending_slu (b : Nat) : (p.joinPending b).slu = p.slu := rfl
@[simp] theorem Part.joinPending_fm (b : Nat) : (p.joinPending b).fm = p.fm := rfl
@[simp] theorem Part.joinPending_pmon (b : Nat) : (p.joinPending b).pmon = p.pmon := rfl
@[simp] theorem Part.joinPending_rsq (b : Nat) : (p.joinPending b).rsq = p.rsq := rfl
@[simp] theorem Part.joinPending_zt (b : Nat) : (p.joinPending b).zt = p.zt := rfl
@[simp] theorem Part.joinPending_cut (b : Nat) : (p.joinPending b).cut = p.cut := rfl
@[simp] theorem Part.joinPending_afa (b : Nat) : (p.joinPending b).afa = p.afa := rfl
@[simp] theorem Part.joinPending_fresh (b : Nat) : (p.joinPending b).fresh = p.fresh := rfl

@[simp] theorem Part.handOver_slu (b : Nat) : (p.handOver b).slu = p.slu := by
  unfold Part.handOver; (repeat' split) <;> simp
@[simp] theorem Part.handOver_fm (b : Nat) : (p.handOver b).fm = p.fm := by
  unfold Part.handOver; (repeat' split) <;> simp
@[simp] theorem Part.handOver_pmon (b : Nat) : (p.handOver b).pmon = p.pmon := by
  unfold Part.handOver; (repeat' split) <;> simp
@[simp] theorem Part.handOver_rsq (b : Nat) : (p.handOver b).rsq = p.rsq := by
  unfold Part.handOver; (repeat' split) <;> simp
@[simp] theorem Part.handOver_zt (b : Nat) : (p.handOver b).zt = p.zt := by
  unfold Part.handOver; (repeat' split) <;> simp
@[simp] theorem Part.handOver_cut (b : Nat) : (p.handOver b).cut = p.cut := by
  unfold Part.handOver; (repeat' split) <;> simp
@[simp] theorem Part.handOver_afa (b : Nat) : (p.handOver b).afa = p.afa := by
  unfold Part.handOver; (repeat' split) <;> simp
@[simp] theorem Part.handOver_fresh (b : Nat) : (p.handOver b).fresh = p.fresh := by
  unfold Part.handOver; (repeat' split) <;> simp

@[simp] theorem Part.handOverAll_slu (bs : List Nat) : (p.handOverAll bs).slu = p.slu := by
  unfold Part.handOverAll; exact foldl_keeps (fun q x => q.handOver x) (·.slu) (fun q x => Part.handOver_slu q x) _ _
@[simp] theorem Part.handOverAll_fm (bs : List Nat) : (p.handOverAll bs).fm = p.fm := by
  unfold Part.handOverAll; exact foldl_keeps (fun q x => q.handOver x) (·.fm) (fun q x => Part.handOver_fm q x) _ _
@[simp] theorem Part.handOverAll_pmon (bs : List Nat) : (p.handOverAll bs).pmon = p.pmon := by
  unfold Part.handOverAll; exact foldl_keeps (fun q x => q.handOver x) (·.pmon) (fun q x => Part.handOver_pmon q x) _ _
@[simp] theorem Part.handOverAll_rsq (bs : List Nat) : (p.handOverAll bs).rsq = p.rsq := by
  unfold Part.handOverAll; exact foldl_keeps (fun q x => q.handOver x) (·.rsq) (fun q x => Part.handOver_rsq q x) _ _
@[simp] theorem Part.handOverAll_zt (bs : List Nat) : (p.handOverAll bs).zt = p.zt := by
  unfold Part.handOverAll; exact foldl_keeps (fun q x => q.handOver x) (·.zt) (fun q x => Part.handOver_zt q x) _ _
@[simp] theorem Part.handOverAll_cut (bs : List Nat) : (p.handOverAll bs).cut = p.cut := by
  unfold Part.handOverAll; exact foldl_keeps (fun q x => q.handOver x) (·.cut) (fun q x => Part.handOver_cut q x) _ _
@[simp] theorem Part.handOverAll_afa (bs : List Nat) : (p.handOverAll bs).afa = p.afa := by
  unfold Part.handOverAll; exact foldl_keeps (fun q x => q.handOver x) (·.afa) (fun q x => Part.handOver_afa q x) _ _
@[simp] theorem Part.handOverAll_fresh (bs : List Nat) : (p.handOverAll bs).fresh = p.fresh := by
  unfold Part.handOverAll; exact foldl_keeps (fun q x => q.handOver x) (·.fresh) (fun q x => Part.handOver_fresh q x) _ _

@[simp] theorem Part.joinAll_slu : p.joinAll.slu = p.slu := by
  unfold Part.joinAll; exact foldl_keeps (fun q x => q.joinPending x) (·.slu) (fun q x => Part.joinPending_slu q x) _ _
@[simp] theorem Part.joinAll_fm : p.joinAll.fm = p.fm := by
  unfold Part.joinAll; exact foldl_keeps (fun q x => q.joinPending x) (·.fm) (fun q x => Part.joinPending_fm q x) _ _
@[simp] theorem Part.joinAll_pmon : p.joinAll.pmon = p.pmon := by
  unfold Part.joinAll; exact foldl_keeps (fun q x => q.joinPending x) (·.pmon) (fun q x => Part.joinPending_pmon q x) _ _
@[simp] theorem Part.joinAll_rsq : p.joinAll.rsq = p.rsq := by
  unfold Part.joinAll; exact foldl_keeps (fun q x => q.joinPending x) (·.rsq) (fun q x => Part.joinPending_rsq q x) _ _
@[simp] theorem Part.joinAll_zt : p.joinAll.zt = p.zt := by
  unfold Part.joinAll; exact foldl_keeps (fun q x => q.joinPending x) (·.zt) (fun q x => Part.joinPending_zt q x) _ _
@[simp] theorem Part.joinAll_cut : p.joinAll.cut = p.cut := by
  unfold Part.joinAll; exact foldl_keeps (fun q x => q.joinPending x) (·.cut) (fun q x => Part.joinPending_cut q x) _ _
@[simp] theorem Part.joinAll_afa : p.joinAll.afa = p.afa := by
  unfold Part.joinAll; exact foldl_keeps (fun q x => q.joinPending x) (·.afa) (fun q x => Part.joinPending_afa q x) _ _
@[simp] theorem Part.joinAll_fresh : p.joinAll.fresh = p.fresh := by
  unfold Part.joinAll; exact foldl_keeps (fun q x => q.joinPending x) (·.fresh) (fun q x => Part.joinPending_fresh q x) _ _

@[simp] theorem Part.retargetBay_slu (b : Nat) : (p.retargetBay b).slu = p.slu := by
  unfold Part.retargetBay; (repeat' split) <;> simp
@[simp] theorem Part.retargetBay_cbm (b : Nat) : (p.retargetBay b).cbm = p.cbm := by
  unfold Part.retargetBay; (repeat' split) <;> simp
@[simp] theorem Part.retargetBay_pmon (b : Nat) : (p.retargetBay b).pmon = p.pmon := by
  unfold Part.retargetBay; (repeat' split) <;> simp
@[simp] theorem Part.retargetBay_rsq (b : Nat) : (p.retargetBay b).rsq = p.rsq := by
  unfold Part.retargetBay; (repeat' split) <;> simp
@[simp] theorem Part.retargetBay_zt (b : Nat) : (p.retargetBay b).zt = p.zt := by
  unfold Part.retargetBay; (repeat' split) <;> simp
@[simp] theorem Part.retargetBay_cut (b : Nat) : (p.retargetBay b).cut = p.cut := by
  unfold Part.retargetBay; (repeat' split) <;> simp
@[simp] theorem Part.retargetBay_afa (b : Nat) : (p.retargetBay b).afa = p.afa := by
  unfold Part.retargetBay; (repeat' split) <;> simp
@[simp] theorem Part.retargetBay_fresh (b : Nat) : (p.retargetBay b).fresh = p.fresh := by
  unfold Part.retargetBay; (repeat' split) <;> simp

@[simp] theorem Part.retargetZone_slu (tag : Nat) : (p.retargetZone tag).slu = p.slu := by
  unfold Part.retargetZone; (repeat' split) <;> simp
@[simp] theorem Part.retargetZone_cbm (tag : Nat) : (p.retargetZone tag).cbm = p.cbm := by
  unfold Part.retargetZone; (repeat' split) <;> simp
@[simp] theorem Part.retargetZone_pmon (tag : Nat) : (p.retargetZone tag).pmon = p.pmon := by
  unfold Part.retargetZone; (repeat' split) <;> simp
@[simp] theorem Part.retargetZone_rsq (tag : Nat) : (p.retargetZone tag).rsq = p.rsq := by
  unfold Part.retargetZone; (repeat' split) <;> simp
@[simp] theorem Part.retargetZone_zt (tag : Nat) : (p.retargetZone tag).zt = p.zt := by
  unfold Part.retargetZone; (repeat' split) <;> simp
@[simp] theorem Part.retargetZone_cut (tag : Nat) : (p.retargetZone tag).cut = p.cut := by
  unfold Part.retargetZone; (repeat' split) <;> simp
@[simp] theorem Part.retargetZone_afa (tag : Nat) : (p.retargetZone tag).afa = p.afa := by
  unfold Part.retargetZone; (repeat' split) <;> simp
@[simp] theorem Part.retargetZone_fresh (tag : Nat) : (p.retargetZone tag).fresh = p.fresh := by
  unfold Part.retargetZone; (repeat' split) <;> simp

@[simp] theorem Part.retargetAll_slu : p.retargetAll.slu = p.slu := rfl
@[simp] theorem Part.retargetAll_cbm : p.retargetAll.cbm = p.cbm := rfl
@[simp] theorem Part.retargetAll_pmon : p.retargetAll.pmon = p.pmon := rfl
@[simp] theorem Part.retargetAll_rsq : p.retargetAll.rsq = p.rsq := rfl
@[simp] theorem Part.retargetAll_zt : p.retargetAll.zt = p.zt := rfl
@[simp] theorem Part.retargetAll_cut : p.retargetAll.cut = p.cut := rfl
@[simp] theorem Part.retargetAll_afa : p.retargetAll.afa = p.afa := rfl
@[simp] theorem Part.retargetAll_fresh : p.retargetAll.fresh = p.fresh := rfl

@[simp] theorem Part.occupiedFlag_cbm (tag : Nat) (o : Bool) : (p.occupiedFlag tag o).cbm = p.cbm := by
  unfold Part.occupiedFlag; dsimp only; (repeat' split) <;> simp
@[simp] theorem Part.occupiedFlag_pmon (tag : Nat) (o : Bool) : (p.occupiedFlag tag o).pmon = p.pmon := by
  unfold Part.occupiedFlag; dsimp only; (repeat' split) <;> simp
@[simp] theorem Part.occupiedFlag_rsq (tag : Nat) (o : Bool) : (p.occupiedFlag tag o).rsq = p.rsq := by
  unfold Part.occupiedFlag; dsimp only; (repeat' split) <;> simp
@[simp] theorem Part.occupiedFlag_cut (tag : Nat) (o : Bool) : (p.occupiedFlag tag o).cut = p.cut := by
  unfold Part.occupiedFlag; dsimp only; (repeat' split) <;> simp
@[simp] theorem Part.occupiedFlag_afa (tag : Nat) (o : Bool) : (p.occupiedFlag tag o).afa = p.afa := by
  unfold Part.occupiedFlag; dsimp only; (repeat' split) <;> simp
@[simp] theorem Part.occupiedFlag_fresh (tag : Nat) (o : Bool) : (p.occupiedFlag tag o).fresh = p.fresh := by
  unfold Part.occupiedFlag; dsimp only; (repeat' split) <;> simp

@[simp] theorem Part.keypadEvent_slu (b : Nat) (k : Key) : (p.keypadEvent b k).slu = p.slu := by
  unfold Part.keypadEvent; (repeat' split) <;> simp
@[simp] theorem Part.keypadEvent_cbm (b : Nat) (k : Key) : (p.keypadEvent b k).cbm = p.cbm := by
  unfold Part.keypadEvent; (repeat' split) <;> simp
@[simp] theorem Part.keypadEvent_pmon (b : Nat) (k : Key) : (p.keypadEvent b k).pmon = p.pmon := by
  unfold Part.keypadEvent; (repeat' split) <;> simp
@[simp] theorem Part.keypadEvent_rsq (b : Nat) (k : Key) : (p.keypadEvent b k).rsq = p.rsq := by
  unfold Part.keypadEvent; (repeat' split) <;> simp
@[simp] theorem Part.keypadEvent_cut (b : Nat) (k : Key) : (p.keypadEvent b k).cut = p.cut := by
  unfold Part.keypadEvent; (repeat' split) <;> simp
@[simp] theorem Part.keypadEvent_afa (b : Nat) (k : Key) : (p.keypadEvent b k).afa = p.afa := by
  unfold Part.keypadEvent; (repeat' split) <;> simp
@[simp] theorem Part.keypadEvent_fresh (b : Nat) (k : Key) : (p.keypadEvent b k).fresh = p.fresh := by
  unfold Part.keypadEvent; (repeat' split) <;> simp

@[simp] theorem Part.raiseAll_cbm (rs : List Report) : (p.raiseAll rs).cbm = p.cbm := by
  unfold Part.raiseAll; exact foldl_keeps Part.raise (·.cbm) (fun q x => Part.raise_cbm x q) _ _
@[simp] theorem Part.raiseAll_fm (rs : List Report) : (p.raiseAll rs).fm = p.fm := by
  unfold Part.raiseAll; exact foldl_keeps Part.raise (·.fm) (fun q x => Part.raise_fm x q) _ _
@[simp] theorem Part.raiseAll_pmon (rs : List Report) : (p.raiseAll rs).pmon = p.pmon := by
  unfold Part.raiseAll; exact foldl_keeps Part.raise (·.pmon) (fun q x => Part.raise_pmon x q) _ _
@[simp] theorem Part.raiseAll_rsq (rs : List Report) : (p.raiseAll rs).rsq = p.rsq := by
  unfold Part.raiseAll; exact foldl_keeps Part.raise (·.rsq) (fun q x => Part.raise_rsq x q) _ _
@[simp] theorem Part.raiseAll_zt (rs : List Report) : (p.raiseAll rs).zt = p.zt := by
  unfold Part.raiseAll; exact foldl_keeps Part.raise (·.zt) (fun q x => Part.raise_zt x q) _ _
@[simp] theorem Part.raiseAll_cut (rs : List Report) : (p.raiseAll rs).cut = p.cut := by
  unfold Part.raiseAll; exact foldl_keeps Part.raise (·.cut) (fun q x => Part.raise_cut x q) _ _
@[simp] theorem Part.raiseAll_afa (rs : List Report) : (p.raiseAll rs).afa = p.afa := by
  unfold Part.raiseAll; exact foldl_keeps Part.raise (·.afa) (fun q x => Part.raise_afa x q) _ _
@[simp] theorem Part.raiseAll_fresh (rs : List Report) : (p.raiseAll rs).fresh = p.fresh := by
  unfold Part.raiseAll; exact foldl_keeps Part.raise (·.fresh) (fun q x => Part.raise_fresh x q) _ _

@[simp] theorem Part.freeZone_cbm (tag : Nat) : (p.freeZone tag).cbm = p.cbm := by simp [Part.freeZone]
@[simp] theorem Part.freeZone_fm (tag : Nat) : (p.freeZone tag).fm = p.fm := by simp [Part.freeZone]
@[simp] theorem Part.freeZone_pmon (tag : Nat) : (p.freeZone tag).pmon = p.pmon := by simp [Part.freeZone]
@[simp] theorem Part.freeZone_rsq (tag : Nat) : (p.freeZone tag).rsq = p.rsq := by simp [Part.freeZone]
@[simp] theorem Part.freeZone_cut (tag : Nat) : (p.freeZone tag).cut = p.cut := by simp [Part.freeZone]
@[simp] theorem Part.freeZone_afa (tag : Nat) : (p.freeZone tag).afa = p.afa := by simp [Part.freeZone]
@[simp] theorem Part.freeZone_fresh (tag : Nat) : (p.freeZone tag).fresh = p.fresh := by simp [Part.freeZone]

@[simp] theorem Part.reanchor_slu (tag : Nat) : (p.reanchor tag).slu = p.slu := rfl
@[simp] theorem Part.reanchor_cbm (tag : Nat) : (p.reanchor tag).cbm = p.cbm := rfl
@[simp] theorem Part.reanchor_fm (tag : Nat) : (p.reanchor tag).fm = p.fm := rfl
@[simp] theorem Part.reanchor_pmon (tag : Nat) : (p.reanchor tag).pmon = p.pmon := rfl
@[simp] theorem Part.reanchor_rsq (tag : Nat) : (p.reanchor tag).rsq = p.rsq := rfl
@[simp] theorem Part.reanchor_cut (tag : Nat) : (p.reanchor tag).cut = p.cut := rfl
@[simp] theorem Part.reanchor_afa (tag : Nat) : (p.reanchor tag).afa = p.afa := rfl
@[simp] theorem Part.reanchor_fresh (tag : Nat) : (p.reanchor tag).fresh = p.fresh := rfl

@[simp] theorem Part.zoneCounts_cbm (old new : Nat) : (p.zoneCounts old new).cbm = p.cbm := by
  unfold Part.zoneCounts; dsimp only; (repeat' split) <;> simp
@[simp] theorem Part.zoneCounts_fm (old new : Nat) : (p.zoneCounts old new).fm = p.fm := by
  unfold Part.zoneCounts; dsimp only; (repeat' split) <;> simp
@[simp] theorem Part.zoneCounts_pmon (old new : Nat) : (p.zoneCounts old new).pmon = p.pmon := by
  unfold Part.zoneCounts; dsimp only; (repeat' split) <;> simp
@[simp] theorem Part.zoneCounts_rsq (old new : Nat) : (p.zoneCounts old new).rsq = p.rsq := by
  unfold Part.zoneCounts; dsimp only; (repeat' split) <;> simp
@[simp] theorem Part.zoneCounts_cut (old new : Nat) : (p.zoneCounts old new).cut = p.cut := by
  unfold Part.zoneCounts; dsimp only; (repeat' split) <;> simp
@[simp] theorem Part.zoneCounts_afa (old new : Nat) : (p.zoneCounts old new).afa = p.afa := by
  unfold Part.zoneCounts; dsimp only; (repeat' split) <;> simp
@[simp] theorem Part.zoneCounts_fresh (old new : Nat) : (p.zoneCounts old new).fresh = p.fresh := by
  unfold Part.zoneCounts; dsimp only; (repeat' split) <;> simp

@[simp] theorem Part.setCounts_slu : p.setCounts.slu = p.slu := rfl
@[simp] theorem Part.setCounts_cbm : p.setCounts.cbm = p.cbm := rfl
@[simp] theorem Part.setCounts_fm : p.setCounts.fm = p.fm := rfl
@[simp] theorem Part.setCounts_pmon : p.setCounts.pmon = p.pmon := rfl
@[simp] theorem Part.setCounts_rsq : p.setCounts.rsq = p.rsq := rfl
@[simp] theorem Part.setCounts_cut : p.setCounts.cut = p.cut := rfl
@[simp] theorem Part.setCounts_afa : p.setCounts.afa = p.afa := rfl
@[simp] theorem Part.setCounts_fresh : p.setCounts.fresh = p.fresh := rfl

@[simp] theorem Part.zoneClimate_cbm (tag : Nat) : (p.zoneClimate tag).cbm = p.cbm := by
  unfold Part.zoneClimate; dsimp only; (repeat' split) <;> simp
@[simp] theorem Part.zoneClimate_fm (tag : Nat) : (p.zoneClimate tag).fm = p.fm := by
  unfold Part.zoneClimate; dsimp only; (repeat' split) <;> simp
@[simp] theorem Part.zoneClimate_pmon (tag : Nat) : (p.zoneClimate tag).pmon = p.pmon := by
  unfold Part.zoneClimate; dsimp only; (repeat' split) <;> simp
@[simp] theorem Part.zoneClimate_rsq (tag : Nat) : (p.zoneClimate tag).rsq = p.rsq := by
  unfold Part.zoneClimate; dsimp only; (repeat' split) <;> simp
@[simp] theorem Part.zoneClimate_cut (tag : Nat) : (p.zoneClimate tag).cut = p.cut := by
  unfold Part.zoneClimate; dsimp only; (repeat' split) <;> simp
@[simp] theorem Part.zoneClimate_afa (tag : Nat) : (p.zoneClimate tag).afa = p.afa := by
  unfold Part.zoneClimate; dsimp only; (repeat' split) <;> simp
@[simp] theorem Part.zoneClimate_fresh (tag : Nat) : (p.zoneClimate tag).fresh = p.fresh := by
  unfold Part.zoneClimate; dsimp only; (repeat' split) <;> simp

@[simp] theorem Part.allocate_pmon : p.allocate.pmon = p.pmon := by
  unfold Part.allocate; split
  · rfl
  · simp only [Part.mapAfa_pmon, Part.handOverAll_pmon, Part.mapFm_pmon, Part.mapZt_pmon]; exact foldl_keeps Part.zoneClimate (·.pmon) (fun p t => Part.zoneClimate_pmon p t) _ _
@[simp] theorem Part.allocate_rsq : p.allocate.rsq = p.rsq := by
  unfold Part.allocate; split
  · rfl
  · simp only [Part.mapAfa_rsq, Part.handOverAll_rsq, Part.mapFm_rsq, Part.mapZt_rsq]; exact foldl_keeps Part.zoneClimate (·.rsq) (fun p t => Part.zoneClimate_rsq p t) _ _
@[simp] theorem Part.allocate_cut : p.allocate.cut = p.cut := by
  unfold Part.allocate; split
  · rfl
  · simp only [Part.mapAfa_cut, Part.handOverAll_cut, Part.mapFm_cut, Part.mapZt_cut]; exact foldl_keeps Part.zoneClimate (·.cut) (fun p t => Part.zoneClimate_cut p t) _ _
@[simp] theorem Part.allocate_fresh : p.allocate.fresh = p.fresh := by
  unfold Part.allocate; split
  · rfl
  · simp only [Part.mapAfa_fresh, Part.handOverAll_fresh, Part.mapFm_fresh, Part.mapZt_fresh]; exact foldl_keeps Part.zoneClimate (·.fresh) (fun p t => Part.zoneClimate_fresh p t) _ _

@[simp] theorem Part.startSolve_slu : p.startSolve.slu = p.slu := rfl
@[simp] theorem Part.startSolve_cbm : p.startSolve.cbm = p.cbm := rfl
@[simp] theorem Part.startSolve_fm : p.startSolve.fm = p.fm := rfl
@[simp] theorem Part.startSolve_zt : p.startSolve.zt = p.zt := rfl
@[simp] theorem Part.startSolve_cut : p.startSolve.cut = p.cut := rfl
@[simp] theorem Part.startSolve_afa : p.startSolve.afa = p.afa := rfl
@[simp] theorem Part.startSolve_fresh : p.startSolve.fresh = p.fresh := rfl

@[simp] theorem Part.notice_slu : p.notice.slu = p.slu := by
  unfold Part.notice; (repeat' split) <;> simp
@[simp] theorem Part.notice_cbm : p.notice.cbm = p.cbm := by
  unfold Part.notice; (repeat' split) <;> simp
@[simp] theorem Part.notice_fm : p.notice.fm = p.fm := by
  unfold Part.notice; (repeat' split) <;> simp
@[simp] theorem Part.notice_zt : p.notice.zt = p.zt := by
  unfold Part.notice; (repeat' split) <;> simp
@[simp] theorem Part.notice_cut : p.notice.cut = p.cut := by
  unfold Part.notice; (repeat' split) <;> simp
@[simp] theorem Part.notice_afa : p.notice.afa = p.afa := by
  unfold Part.notice; (repeat' split) <;> simp
@[simp] theorem Part.notice_fresh : p.notice.fresh = p.fresh := by
  unfold Part.notice; (repeat' split) <;> simp

@[simp] theorem Part.decideAtIdle_slu : p.decideAtIdle.slu = p.slu := by
  unfold Part.decideAtIdle; (repeat' split) <;> simp
@[simp] theorem Part.decideAtIdle_cbm : p.decideAtIdle.cbm = p.cbm := by
  unfold Part.decideAtIdle; (repeat' split) <;> simp
@[simp] theorem Part.decideAtIdle_fm : p.decideAtIdle.fm = p.fm := by
  unfold Part.decideAtIdle; (repeat' split) <;> simp
@[simp] theorem Part.decideAtIdle_zt : p.decideAtIdle.zt = p.zt := by
  unfold Part.decideAtIdle; (repeat' split) <;> simp
@[simp] theorem Part.decideAtIdle_cut : p.decideAtIdle.cut = p.cut := by
  unfold Part.decideAtIdle; (repeat' split) <;> simp
@[simp] theorem Part.decideAtIdle_afa : p.decideAtIdle.afa = p.afa := by
  unfold Part.decideAtIdle; (repeat' split) <;> simp
@[simp] theorem Part.decideAtIdle_fresh : p.decideAtIdle.fresh = p.fresh := by
  unfold Part.decideAtIdle; (repeat' split) <;> simp

@[simp] theorem Part.returnToIdle_slu : p.returnToIdle.slu = p.slu := by simp [Part.returnToIdle]
@[simp] theorem Part.returnToIdle_cbm : p.returnToIdle.cbm = p.cbm := by simp [Part.returnToIdle]
@[simp] theorem Part.returnToIdle_fm : p.returnToIdle.fm = p.fm := by simp [Part.returnToIdle]
@[simp] theorem Part.returnToIdle_zt : p.returnToIdle.zt = p.zt := by simp [Part.returnToIdle]
@[simp] theorem Part.returnToIdle_cut : p.returnToIdle.cut = p.cut := by simp [Part.returnToIdle]
@[simp] theorem Part.returnToIdle_afa : p.returnToIdle.afa = p.afa := by simp [Part.returnToIdle]
@[simp] theorem Part.returnToIdle_fresh : p.returnToIdle.fresh = p.fresh := by simp [Part.returnToIdle]

@[simp] theorem Part.cutBay_cbm (b : Nat) : (p.cutBay b).cbm = p.cbm := by
  unfold Part.cutBay; dsimp only; (repeat' split) <;> simp
@[simp] theorem Part.cutBay_pmon (b : Nat) : (p.cutBay b).pmon = p.pmon := by
  unfold Part.cutBay; dsimp only; (repeat' split) <;> simp
@[simp] theorem Part.cutBay_rsq (b : Nat) : (p.cutBay b).rsq = p.rsq := by
  unfold Part.cutBay; dsimp only; (repeat' split) <;> simp
@[simp] theorem Part.cutBay_afa (b : Nat) : (p.cutBay b).afa = p.afa := by
  unfold Part.cutBay; dsimp only; (repeat' split) <;> simp
@[simp] theorem Part.cutBay_fresh (b : Nat) : (p.cutBay b).fresh = p.fresh := by
  unfold Part.cutBay; dsimp only; (repeat' split) <;> simp

@[simp] theorem Part.cutBays_cbm (bs : List Nat) : (p.cutBays bs).cbm = p.cbm := by
  unfold Part.cutBays; exact foldl_keeps Part.cutBay (·.cbm) (fun q x => Part.cutBay_cbm q x) _ _
@[simp] theorem Part.cutBays_pmon (bs : List Nat) : (p.cutBays bs).pmon = p.pmon := by
  unfold Part.cutBays; exact foldl_keeps Part.cutBay (·.pmon) (fun q x => Part.cutBay_pmon q x) _ _
@[simp] theorem Part.cutBays_rsq (bs : List Nat) : (p.cutBays bs).rsq = p.rsq := by
  unfold Part.cutBays; exact foldl_keeps Part.cutBay (·.rsq) (fun q x => Part.cutBay_rsq q x) _ _
@[simp] theorem Part.cutBays_afa (bs : List Nat) : (p.cutBays bs).afa = p.afa := by
  unfold Part.cutBays; exact foldl_keeps Part.cutBay (·.afa) (fun q x => Part.cutBay_afa q x) _ _
@[simp] theorem Part.cutBays_fresh (bs : List Nat) : (p.cutBays bs).fresh = p.fresh := by
  unfold Part.cutBays; exact foldl_keeps Part.cutBay (·.fresh) (fun q x => Part.cutBay_fresh q x) _ _

@[simp] theorem Part.completeCutover_fresh (c : EndCause) : (p.completeCutover c).fresh = p.fresh := by
  unfold Part.completeCutover; dsimp only; (repeat' split) <;> simp

@[simp] theorem Part.completeIfEmpty_fresh (c : EndCause) : (p.completeIfEmpty c).fresh = p.fresh := by
  unfold Part.completeIfEmpty; (repeat' split) <;> simp

@[simp] theorem Part.cutRemaining_fresh (c : EndCause) : (p.cutRemaining c).fresh = p.fresh := by simp [Part.cutRemaining]

@[simp] theorem Part.vacantVisit_fresh (b : Nat) (o : Bool) : (p.vacantVisit b o).fresh = p.fresh := by
  unfold Part.vacantVisit; (repeat' split) <;> simp

@[simp] theorem Part.silentVisit_fresh (b : Nat) : (p.silentVisit b).fresh = p.fresh := by
  unfold Part.silentVisit; (repeat' split) <;> simp

@[simp] theorem Part.effectiveChange_slu (e : Nat) (n : EdgeState) : (p.effectiveChange e n).slu = p.slu := by
  unfold Part.effectiveChange; dsimp only; (repeat' split) <;> simp
@[simp] theorem Part.effectiveChange_cbm (e : Nat) (n : EdgeState) : (p.effectiveChange e n).cbm = p.cbm := by
  unfold Part.effectiveChange; dsimp only; (repeat' split) <;> simp
@[simp] theorem Part.effectiveChange_fm (e : Nat) (n : EdgeState) : (p.effectiveChange e n).fm = p.fm := by
  unfold Part.effectiveChange; dsimp only; (repeat' split) <;> simp
@[simp] theorem Part.effectiveChange_rsq (e : Nat) (n : EdgeState) : (p.effectiveChange e n).rsq = p.rsq := by
  unfold Part.effectiveChange; dsimp only; (repeat' split) <;> simp
@[simp] theorem Part.effectiveChange_zt (e : Nat) (n : EdgeState) : (p.effectiveChange e n).zt = p.zt := by
  unfold Part.effectiveChange; dsimp only; (repeat' split) <;> simp
@[simp] theorem Part.effectiveChange_cut (e : Nat) (n : EdgeState) : (p.effectiveChange e n).cut = p.cut := by
  unfold Part.effectiveChange; dsimp only; (repeat' split) <;> simp
@[simp] theorem Part.effectiveChange_afa (e : Nat) (n : EdgeState) : (p.effectiveChange e n).afa = p.afa := by
  unfold Part.effectiveChange; dsimp only; (repeat' split) <;> simp
@[simp] theorem Part.effectiveChange_fresh (e : Nat) (n : EdgeState) : (p.effectiveChange e n).fresh = p.fresh := by
  unfold Part.effectiveChange; dsimp only; (repeat' split) <;> simp

@[simp] theorem Part.rewriteEdge_slu (e : Nat) (g : Edge → Edge) : (p.rewriteEdge e g).slu = p.slu := by
  unfold Part.rewriteEdge; dsimp only; (repeat' split) <;> simp
@[simp] theorem Part.rewriteEdge_cbm (e : Nat) (g : Edge → Edge) : (p.rewriteEdge e g).cbm = p.cbm := by
  unfold Part.rewriteEdge; dsimp only; (repeat' split) <;> simp
@[simp] theorem Part.rewriteEdge_fm (e : Nat) (g : Edge → Edge) : (p.rewriteEdge e g).fm = p.fm := by
  unfold Part.rewriteEdge; dsimp only; (repeat' split) <;> simp
@[simp] theorem Part.rewriteEdge_rsq (e : Nat) (g : Edge → Edge) : (p.rewriteEdge e g).rsq = p.rsq := by
  unfold Part.rewriteEdge; dsimp only; (repeat' split) <;> simp
@[simp] theorem Part.rewriteEdge_zt (e : Nat) (g : Edge → Edge) : (p.rewriteEdge e g).zt = p.zt := by
  unfold Part.rewriteEdge; dsimp only; (repeat' split) <;> simp
@[simp] theorem Part.rewriteEdge_cut (e : Nat) (g : Edge → Edge) : (p.rewriteEdge e g).cut = p.cut := by
  unfold Part.rewriteEdge; dsimp only; (repeat' split) <;> simp
@[simp] theorem Part.rewriteEdge_afa (e : Nat) (g : Edge → Edge) : (p.rewriteEdge e g).afa = p.afa := by
  unfold Part.rewriteEdge; dsimp only; (repeat' split) <;> simp
@[simp] theorem Part.rewriteEdge_fresh (e : Nat) (g : Edge → Edge) : (p.rewriteEdge e g).fresh = p.fresh := by
  unfold Part.rewriteEdge; dsimp only; (repeat' split) <;> simp

@[simp] theorem Part.contact_slu (e : Option Nat) (c : Bool) : (p.contact e c).slu = p.slu := by
  unfold Part.contact; (repeat' split) <;> simp
@[simp] theorem Part.contact_cbm (e : Option Nat) (c : Bool) : (p.contact e c).cbm = p.cbm := by
  unfold Part.contact; (repeat' split) <;> simp
@[simp] theorem Part.contact_fm (e : Option Nat) (c : Bool) : (p.contact e c).fm = p.fm := by
  unfold Part.contact; (repeat' split) <;> simp
@[simp] theorem Part.contact_rsq (e : Option Nat) (c : Bool) : (p.contact e c).rsq = p.rsq := by
  unfold Part.contact; (repeat' split) <;> simp
@[simp] theorem Part.contact_zt (e : Option Nat) (c : Bool) : (p.contact e c).zt = p.zt := by
  unfold Part.contact; (repeat' split) <;> simp
@[simp] theorem Part.contact_cut (e : Option Nat) (c : Bool) : (p.contact e c).cut = p.cut := by
  unfold Part.contact; (repeat' split) <;> simp
@[simp] theorem Part.contact_afa (e : Option Nat) (c : Bool) : (p.contact e c).afa = p.afa := by
  unfold Part.contact; (repeat' split) <;> simp
@[simp] theorem Part.contact_fresh (e : Option Nat) (c : Bool) : (p.contact e c).fresh = p.fresh := by
  unfold Part.contact; (repeat' split) <;> simp

@[simp] theorem Part.contacts_slu (b : Nat) (east south : Bool) : (p.contacts b east south).slu = p.slu := by simp [Part.contacts]
@[simp] theorem Part.contacts_cbm (b : Nat) (east south : Bool) : (p.contacts b east south).cbm = p.cbm := by simp [Part.contacts]
@[simp] theorem Part.contacts_fm (b : Nat) (east south : Bool) : (p.contacts b east south).fm = p.fm := by simp [Part.contacts]
@[simp] theorem Part.contacts_rsq (b : Nat) (east south : Bool) : (p.contacts b east south).rsq = p.rsq := by simp [Part.contacts]
@[simp] theorem Part.contacts_zt (b : Nat) (east south : Bool) : (p.contacts b east south).zt = p.zt := by simp [Part.contacts]
@[simp] theorem Part.contacts_cut (b : Nat) (east south : Bool) : (p.contacts b east south).cut = p.cut := by simp [Part.contacts]
@[simp] theorem Part.contacts_afa (b : Nat) (east south : Bool) : (p.contacts b east south).afa = p.afa := by simp [Part.contacts]
@[simp] theorem Part.contacts_fresh (b : Nat) (east south : Bool) : (p.contacts b east south).fresh = p.fresh := by simp [Part.contacts]

@[simp] theorem Part.clearCandidates_slu (b : Nat) : (p.clearCandidates b).slu = p.slu := by
  unfold Part.clearCandidates; dsimp only; (repeat' split) <;> simp
@[simp] theorem Part.clearCandidates_cbm (b : Nat) : (p.clearCandidates b).cbm = p.cbm := by
  unfold Part.clearCandidates; dsimp only; (repeat' split) <;> simp
@[simp] theorem Part.clearCandidates_fm (b : Nat) : (p.clearCandidates b).fm = p.fm := by
  unfold Part.clearCandidates; dsimp only; (repeat' split) <;> simp
@[simp] theorem Part.clearCandidates_rsq (b : Nat) : (p.clearCandidates b).rsq = p.rsq := by
  unfold Part.clearCandidates; dsimp only; (repeat' split) <;> simp
@[simp] theorem Part.clearCandidates_zt (b : Nat) : (p.clearCandidates b).zt = p.zt := by
  unfold Part.clearCandidates; dsimp only; (repeat' split) <;> simp
@[simp] theorem Part.clearCandidates_cut (b : Nat) : (p.clearCandidates b).cut = p.cut := by
  unfold Part.clearCandidates; dsimp only; (repeat' split) <;> simp
@[simp] theorem Part.clearCandidates_afa (b : Nat) : (p.clearCandidates b).afa = p.afa := by
  unfold Part.clearCandidates; dsimp only; (repeat' split) <;> simp
@[simp] theorem Part.clearCandidates_fresh (b : Nat) : (p.clearCandidates b).fresh = p.fresh := by
  unfold Part.clearCandidates; dsimp only; (repeat' split) <;> simp

@[simp] theorem Part.endSurvey_slu : p.endSurvey.slu = p.slu := rfl
@[simp] theorem Part.endSurvey_cbm : p.endSurvey.cbm = p.cbm := rfl
@[simp] theorem Part.endSurvey_zt : p.endSurvey.zt = p.zt := rfl
@[simp] theorem Part.endSurvey_cut : p.endSurvey.cut = p.cut := rfl
@[simp] theorem Part.endSurvey_afa : p.endSurvey.afa = p.afa := rfl
@[simp] theorem Part.endSurvey_fresh : p.endSurvey.fresh = p.fresh := rfl

@[simp] theorem Part.countRound_slu : p.countRound.slu = p.slu := by
  unfold Part.countRound; dsimp only; (repeat' split) <;> simp
@[simp] theorem Part.countRound_cbm : p.countRound.cbm = p.cbm := by
  unfold Part.countRound; dsimp only; (repeat' split) <;> simp
@[simp] theorem Part.countRound_zt : p.countRound.zt = p.zt := by
  unfold Part.countRound; dsimp only; (repeat' split) <;> simp
@[simp] theorem Part.countRound_cut : p.countRound.cut = p.cut := by
  unfold Part.countRound; dsimp only; (repeat' split) <;> simp
@[simp] theorem Part.countRound_afa : p.countRound.afa = p.afa := by
  unfold Part.countRound; dsimp only; (repeat' split) <;> simp
@[simp] theorem Part.countRound_fresh : p.countRound.fresh = p.fresh := by
  unfold Part.countRound; dsimp only; (repeat' split) <;> simp

@[simp] theorem Part.completeRound_slu : p.completeRound.slu = p.slu := by simp [Part.completeRound]
@[simp] theorem Part.completeRound_zt : p.completeRound.zt = p.zt := by simp [Part.completeRound]
@[simp] theorem Part.completeRound_cut : p.completeRound.cut = p.cut := by simp [Part.completeRound]
@[simp] theorem Part.completeRound_afa : p.completeRound.afa = p.afa := by simp [Part.completeRound]
@[simp] theorem Part.completeRound_fresh : p.completeRound.fresh = p.fresh := by simp [Part.completeRound]

@[simp] theorem Part.grantPoll_slu (b : Nat) : (p.grantPoll b).slu = p.slu := rfl
@[simp] theorem Part.grantPoll_fm (b : Nat) : (p.grantPoll b).fm = p.fm := rfl
@[simp] theorem Part.grantPoll_pmon (b : Nat) : (p.grantPoll b).pmon = p.pmon := rfl
@[simp] theorem Part.grantPoll_rsq (b : Nat) : (p.grantPoll b).rsq = p.rsq := rfl
@[simp] theorem Part.grantPoll_zt (b : Nat) : (p.grantPoll b).zt = p.zt := rfl
@[simp] theorem Part.grantPoll_cut (b : Nat) : (p.grantPoll b).cut = p.cut := rfl
@[simp] theorem Part.grantPoll_afa (b : Nat) : (p.grantPoll b).afa = p.afa := rfl
@[simp] theorem Part.grantPoll_fresh (b : Nat) : (p.grantPoll b).fresh = p.fresh := rfl

@[simp] theorem Part.pollOrHold_slu : p.pollOrHold.slu = p.slu := by
  unfold Part.pollOrHold; (repeat' split) <;> simp
@[simp] theorem Part.pollOrHold_fm : p.pollOrHold.fm = p.fm := by
  unfold Part.pollOrHold; (repeat' split) <;> simp
@[simp] theorem Part.pollOrHold_pmon : p.pollOrHold.pmon = p.pmon := by
  unfold Part.pollOrHold; (repeat' split) <;> simp
@[simp] theorem Part.pollOrHold_rsq : p.pollOrHold.rsq = p.rsq := by
  unfold Part.pollOrHold; (repeat' split) <;> simp
@[simp] theorem Part.pollOrHold_zt : p.pollOrHold.zt = p.zt := by
  unfold Part.pollOrHold; (repeat' split) <;> simp
@[simp] theorem Part.pollOrHold_cut : p.pollOrHold.cut = p.cut := by
  unfold Part.pollOrHold; (repeat' split) <;> simp
@[simp] theorem Part.pollOrHold_afa : p.pollOrHold.afa = p.afa := by
  unfold Part.pollOrHold; (repeat' split) <;> simp
@[simp] theorem Part.pollOrHold_fresh : p.pollOrHold.fresh = p.fresh := by
  unfold Part.pollOrHold; (repeat' split) <;> simp

@[simp] theorem Part.grantPolling_slu : p.grantPolling.slu = p.slu := by
  unfold Part.grantPolling; dsimp only; (repeat' split) <;> simp
@[simp] theorem Part.grantPolling_zt : p.grantPolling.zt = p.zt := by
  unfold Part.grantPolling; dsimp only; (repeat' split) <;> simp
@[simp] theorem Part.grantPolling_cut : p.grantPolling.cut = p.cut := by
  unfold Part.grantPolling; dsimp only; (repeat' split) <;> simp
@[simp] theorem Part.grantPolling_afa : p.grantPolling.afa = p.afa := by
  unfold Part.grantPolling; dsimp only; (repeat' split) <;> simp
@[simp] theorem Part.grantPolling_fresh : p.grantPolling.fresh = p.fresh := by
  unfold Part.grantPolling; dsimp only; (repeat' split) <;> simp

@[simp] theorem Part.grantDrive_slu (b : Nat) (d : Pair) : (p.grantDrive b d).slu = p.slu := rfl
@[simp] theorem Part.grantDrive_fm (b : Nat) (d : Pair) : (p.grantDrive b d).fm = p.fm := rfl
@[simp] theorem Part.grantDrive_pmon (b : Nat) (d : Pair) : (p.grantDrive b d).pmon = p.pmon := rfl
@[simp] theorem Part.grantDrive_rsq (b : Nat) (d : Pair) : (p.grantDrive b d).rsq = p.rsq := rfl
@[simp] theorem Part.grantDrive_zt (b : Nat) (d : Pair) : (p.grantDrive b d).zt = p.zt := rfl
@[simp] theorem Part.grantDrive_cut (b : Nat) (d : Pair) : (p.grantDrive b d).cut = p.cut := rfl
@[simp] theorem Part.grantDrive_afa (b : Nat) (d : Pair) : (p.grantDrive b d).afa = p.afa := rfl
@[simp] theorem Part.grantDrive_fresh (b : Nat) (d : Pair) : (p.grantDrive b d).fresh = p.fresh := rfl

@[simp] theorem Part.arbitrate_slu : p.arbitrate.slu = p.slu := by
  unfold Part.arbitrate Part.grantWith; (repeat' split) <;> simp
@[simp] theorem Part.arbitrate_zt : p.arbitrate.zt = p.zt := by
  unfold Part.arbitrate Part.grantWith; (repeat' split) <;> simp
@[simp] theorem Part.arbitrate_cut : p.arbitrate.cut = p.cut := by
  unfold Part.arbitrate Part.grantWith; (repeat' split) <;> simp
@[simp] theorem Part.arbitrate_afa : p.arbitrate.afa = p.afa := by
  unfold Part.arbitrate Part.grantWith; (repeat' split) <;> simp
@[simp] theorem Part.arbitrate_fresh : p.arbitrate.fresh = p.fresh := by
  unfold Part.arbitrate Part.grantWith; (repeat' split) <;> simp

@[simp] theorem Part.checkEcho_fm (b : Nat) (e : Pair) : (p.checkEcho b e).fm = p.fm := by
  unfold Part.checkEcho; (repeat' split) <;> simp
@[simp] theorem Part.checkEcho_pmon (b : Nat) (e : Pair) : (p.checkEcho b e).pmon = p.pmon := by
  unfold Part.checkEcho; (repeat' split) <;> simp
@[simp] theorem Part.checkEcho_rsq (b : Nat) (e : Pair) : (p.checkEcho b e).rsq = p.rsq := by
  unfold Part.checkEcho; (repeat' split) <;> simp
@[simp] theorem Part.checkEcho_zt (b : Nat) (e : Pair) : (p.checkEcho b e).zt = p.zt := by
  unfold Part.checkEcho; (repeat' split) <;> simp
@[simp] theorem Part.checkEcho_cut (b : Nat) (e : Pair) : (p.checkEcho b e).cut = p.cut := by
  unfold Part.checkEcho; (repeat' split) <;> simp
@[simp] theorem Part.checkEcho_afa (b : Nat) (e : Pair) : (p.checkEcho b e).afa = p.afa := by
  unfold Part.checkEcho; (repeat' split) <;> simp
@[simp] theorem Part.checkEcho_fresh (b : Nat) (e : Pair) : (p.checkEcho b e).fresh = p.fresh := by
  unfold Part.checkEcho; (repeat' split) <;> simp

@[simp] theorem Part.comeBack_pmon (b : Nat) : (p.comeBack b).pmon = p.pmon := by
  unfold Part.comeBack; dsimp only; (repeat' split) <;> simp
@[simp] theorem Part.comeBack_rsq (b : Nat) : (p.comeBack b).rsq = p.rsq := by
  unfold Part.comeBack; dsimp only; (repeat' split) <;> simp
@[simp] theorem Part.comeBack_zt (b : Nat) : (p.comeBack b).zt = p.zt := by
  unfold Part.comeBack; dsimp only; (repeat' split) <;> simp
@[simp] theorem Part.comeBack_cut (b : Nat) : (p.comeBack b).cut = p.cut := by
  unfold Part.comeBack; dsimp only; (repeat' split) <;> simp
@[simp] theorem Part.comeBack_afa (b : Nat) : (p.comeBack b).afa = p.afa := by
  unfold Part.comeBack; dsimp only; (repeat' split) <;> simp
@[simp] theorem Part.comeBack_fresh (b : Nat) : (p.comeBack b).fresh = p.fresh := by
  unfold Part.comeBack; dsimp only; (repeat' split) <;> simp

end

/-- R90: after a zone is freed no used slot holds its tag, and every other tag's zone stands. -/
theorem Zt.zone?_dropZone (tag : Nat) (t : Zt) (other : Nat) :
    (t.dropZone tag).zone? other = if other = tag then none else t.zone? other := by
  have e : (t.dropZone tag).zones = t.zones.filter fun z => z.tag != tag := by
    simp only [Zt.zones, Zt.dropZone]
    induction t.slots with
    | nil => rfl
    | cons o os ih =>
      cases o with
      | none => simpa using ih
      | some z => by_cases h : z.tag = tag <;> simpa [Option.filter, h] using ih
  simp only [Zt.zone?, e, List.find?_filter]
  split
  · next h => subst h; simp [List.find?_eq_none]
  · next h =>
    congr 1; funext z
    by_cases hz : z.tag = other <;> simp_all

/-- R113, R123: moving the deadline changes the deadline, as MovedDeadline says, and the count of free values alone. -/
theorem Part.moveDeadline_spec (limit : Nat) (p : Part) :
    ∃ d n, p.moveDeadline limit = { p with cut := { p.cut with deadline := d }, fresh := n }
      ∧ MovedDeadline p.fm.clock p.cut.run limit p.cut.deadline d := by
  obtain ⟨slu, cbm, fm, pmon, rsq, zt, ⟨list, mode, interval, lim, step, dl, run⟩, afa, fresh⟩ := p
  cases dl with
  | stopped => exact ⟨.stopped, fresh, by cases run <;> rfl, rfl⟩
  | passed => exact ⟨.passed, fresh, by cases run <;> rfl, rfl⟩
  | running l =>
    cases run with
    | none => exact ⟨.running limit, fresh, rfl, rfl⟩
    | some r =>
      simp only [Part.moveDeadline, Part.cutoverSeconds, Option.map_some, secondsSince, MovedDeadline]
      split
      · next h => exact ⟨_, fresh, rfl, fun _ => rfl, fun h' => absurd h' (by omega), fun h' => absurd h' (by omega)⟩
      · split
        · next h => exact ⟨_, fresh, rfl, fun h' => absurd h' (by omega), fun _ => rfl, fun h' => absurd h' (by omega)⟩
        · next h h' =>
          refine ⟨_, fresh + 1, rfl, fun x => absurd x h, fun x => absurd x h', fun _ => ?_⟩
          split
          · exact Or.inr rfl
          · exact Or.inl rfl

/-- R152: the usable temperatures by their four conditions are those that zoneClimate takes. -/
theorem usableTemps_eq (p : Part) (tag : Nat) :
    usableTemps p tag = (p.fm.nodes.filter fun x => x.2.tag = tag).filterMap fun x => x.2.usableTemp := by
  unfold usableTemps
  induction p.fm.nodes with
  | nil => rfl
  | cons x xs ih =>
    obtain ⟨b, r⟩ := x
    rw [List.filterMap_cons, ih]
    by_cases ht : r.tag = tag
    · rw [List.filter_cons_of_pos (by simpa using ht), List.filterMap_cons]
      cases hh : r.health <;> cases hi : r.inputs <;> simp [BayRec.usableTemp, hh, hi, ht]
    · rw [List.filter_cons_of_neg (by simpa using ht)]
      cases hi : r.inputs <;> simp [ht]

/-- R31: a bay that joins keeps the set one of ascending ROOMABLE bays. -/
theorem Part.joinPending_laws (b : Nat) (p : Part) (roomable : (p.fm.node? b).isSome = true) (h : PendingLaws p) :
    PendingLaws (p.joinPending b) :=
  ⟨insertSet_sorted b _ h.1, fun c hc => ((mem_insertSet b c _).1 hc).elim (fun e => e ▸ roomable) (h.2 c)⟩

end Sys2Proof.Machine
end

