-- ==== Sys2Proof/Laws/PerInstr.lean ====
section
/-! SUPPORT. Statements made of every command as syntax: the frame of a request command passes the check of R165. -/

namespace Sys2Proof.Laws.FrameSum

open Sys2Proof.Machine

/-- The bytes from LEN to CHECK of the frame that a request command is the arrival of sum to a multiple of 256 (R165). -/
def Statement (i : Instr) : Prop :=
  ∀ r, i.request? = some r → byteSum ((Frame.mk r.1 r.2.1 r.2.2).bytes.drop 1) % 256 = 0

theorem frame_sum (f : Frame) : byteSum (f.bytes.drop 1) % 256 = 0 := by
  have split : byteSum (f.bytes.drop 1) = byteSum f.content + (checkByte (byteSum f.content)).toNat := by
    simp [Frame.bytes, byteSum]
  rw [split]
  simp only [checkByte, byteOf, BitVec.toNat_ofNat]
  omega

theorem every (i : Instr) : Statement i := fun r _ => frame_sum ⟨r.1, r.2.1, r.2.2⟩

theorem coldRestart : Statement (.coldRestart) := every _
theorem identify (number : Byte) (body : List Byte) : Statement (.identify number body) := every _
theorem setupFloor (number : Byte) (body : List Byte) : Statement (.setupFloor number body) := every _
theorem setRoles (number : Byte) (body : List Byte) : Statement (.setRoles number body) := every _
theorem setAuto (number : Byte) (body : List Byte) : Statement (.setAuto number body) := every _
theorem solve (number : Byte) (body : List Byte) : Statement (.solve number body) := every _
theorem setPacing (number : Byte) (body : List Byte) : Statement (.setPacing number body) := every _
theorem hasten (number : Byte) (body : List Byte) : Statement (.hasten number body) := every _
theorem setSupply (number : Byte) (body : List Byte) : Statement (.setSupply number body) := every _
theorem setZone (number : Byte) (body : List Byte) : Statement (.setZone number body) := every _
theorem readZone (number : Byte) (body : List Byte) : Statement (.readZone number body) := every _
theorem listZones (number : Byte) (body : List Byte) : Statement (.listZones number body) := every _
theorem readBay (number : Byte) (body : List Byte) : Statement (.readBay number body) := every _
theorem readEdges (number : Byte) (body : List Byte) : Statement (.readEdges number body) := every _
theorem readChanges (number : Byte) (body : List Byte) : Statement (.readChanges number body) := every _
theorem overrideEdges (number : Byte) (body : List Byte) : Statement (.overrideEdges number body) := every _
theorem pinKeypad (number : Byte) (body : List Byte) : Statement (.pinKeypad number body) := every _
theorem unpinKeypad (number : Byte) (body : List Byte) : Statement (.unpinKeypad number body) := every _
theorem passThrough (number : Byte) (body : List Byte) : Statement (.passThrough number body) := every _
theorem setReports (number : Byte) (body : List Byte) : Statement (.setReports number body) := every _
theorem restart (number : Byte) (body : List Byte) : Statement (.restart number body) := every _
theorem unknownKind (kind number : Byte) (body : List Byte) : Statement (.unknownKind kind number body) := every _
theorem frameDiscard (cause : DiscardCause) : Statement (.frameDiscard cause) := every _
theorem frameGap : Statement (.frameGap) := every _
theorem frameSent : Statement (.frameSent) := every _
theorem receptionEnd : Statement (.receptionEnd) := every _
theorem idleHoldEnd : Statement (.idleHoldEnd) := every _
theorem quietTimerExpiry : Statement (.quietTimerExpiry) := every _
theorem solveCompletion : Statement (.solveCompletion) := every _
theorem stepTimerExpiry : Statement (.stepTimerExpiry) := every _
theorem deadlineExpiry : Statement (.deadlineExpiry) := every _
theorem vacancyTimerExpiry (tag : Nat) : Statement (.vacancyTimerExpiry tag) := every _
theorem fadeTick : Statement (.fadeTick) := every _
theorem allocationIntervalExpiry : Statement (.allocationIntervalExpiry) := every _
theorem floorClockTick : Statement (.floorClockTick) := every _
theorem frameByteReceived (data : Byte) (stopLow : Bool) : Statement (.frameByteReceived data stopLow) := every _
theorem cbRequestSent : Statement (.cbRequestSent) := every _
theorem cbReplyCharacter (data : Byte) (mark stopLow : Bool) : Statement (.cbReplyCharacter data mark stopLow) := every _

end Sys2Proof.Laws.FrameSum
end

