-- ==== Sys2Proof/Tests/Slice0.lean ====
section
/-! SUPPORT. The model's own tests: ill-formed terms refused, the spec's worked values, and for each statement a state and
operands that meet its hypotheses. -/

namespace Sys2Proof.Tests

open Sys2Proof.Machine

/-! ### Ill-formed commands -/

theorem test_identify_body_too_long : (Instr.identify 0 (List.replicate 197 0)).wellFormed = false := by decide +kernel
theorem test_identify_longest_body : (Instr.identify 0 (List.replicate 196 0)).wellFormed = true := by decide +kernel
theorem test_unknown_kind_assigned : (Instr.unknownKind 0x14 0 []).wellFormed = false := by decide
theorem test_unknown_kind_reply_kind : (Instr.unknownKind 0x80 0 []).wellFormed = false := by decide
theorem test_unknown_kind_bounds :
    (Instr.unknownKind 0x00 0 []).wellFormed && (Instr.unknownKind 0x15 0 []).wellFormed
      && (Instr.unknownKind 0x7F 0 []).wellFormed = true := by decide
theorem test_unknown_kind_body_too_long : (Instr.unknownKind 0x15 0 (List.replicate 197 0)).wellFormed = false := by decide +kernel
theorem test_vacancy_tag_too_high : (Instr.vacancyTimerExpiry 251).wellFormed = false := by decide
theorem test_no_word_is_a_command : decodeTableWord 16 7 = none := rfl

/-! ### The spec's worked values -/

/-- The table of R18: the check bytes for bay 37. -/
theorem test_check_bytes_of_bay_37 :
    (Transaction.poll 37).characters = [(true, 37), (false, 0x31), (false, 0xAA)]
      ∧ (Transaction.drive 37 ⟨200, 108⟩).characters =
        [(true, 37), (false, 0x32), (false, 200), (false, 108), (false, 0x75)]
      ∧ checkByte 487 = 0x19 ∧ checkByte 97 = 0x9F := by decide

/-- The table of R165. -/
theorem test_frames_of_r165 :
    (Frame.mk 0x01 7 []).bytes = [0xC3, 2, 0x01, 7, 0xF6]
      ∧ (Frame.mk 0x85 42 [1, 0]).bytes = [0xC3, 4, 0x85, 42, 1, 0, 0x4C]
      ∧ (Frame.mk 0x8C 9 [0x0B, 0]).bytes = [0xC3, 4, 0x8C, 9, 0x0B, 0, 0x5C] := by decide

/-- The table of R87. -/
theorem test_next_tag_counter :
    nextFreeTag [4, 9] 250 10 = 10 ∧ nextFreeTag [4, 9, 10, 11, 12, 13] 250 12 = 14
      ∧ nextFreeTag [250, 1, 5] 250 250 = 2 ∧ nextFreeTag [2, 3] 250 249 = 249 ∧ tagAfter 249 = 250 ∧ tagAfter 250 = 1 := by
  decide

/-- The two examples of R95. -/
theorem test_settings_clamped :
    (Settings.mk 1200 1100 10 130 100 55 5).clamped = ⟨1000, 1000, 30, 120, 124, 40, 10⟩
      ∧ (Settings.mk 300 500 900 88 90 10 200).clamped = ⟨300, 300, 900, 88, 92, 10, 200⟩ := by decide

/-- The tables of R137 and R138. -/
theorem test_fade_steps_and_level_bytes :
    [10, 30, 200, 1000].map fadeStep = [2, 7, 50, 250]
      ∧ [0, 1, 2, 200, 801, 997, 998, 1000].map levelByte = [0, 0, 1, 50, 200, 249, 250, 250] := by decide

/-- The table of R159 and its last line. -/
theorem test_damper_bytes :
    [10, 21, 22, 25, 26, 30, 32, 33, 60].map (damperByte 60) = [42, 88, 92, 104, 108, 125, 133, 138, 250]
      ∧ damperByte 75 20 = 67 := by decide

/-- R152's rounding and the table of R154. -/
theorem test_zone_temperature_and_extra :
    meanTemp [96, 97, 97, 98, 96, 97] none = some 97 ∧ meanTemp [90, 91] none = some 91 ∧ meanTemp [] (some 80) = some 80
      ∧ extraPerBay 10 60 ⟨800, 200, 900, 80, 96, 10, 200⟩ (some 97) = 2
      ∧ extraPerBay 10 60 ⟨800, 200, 900, 80, 92, 12, 200⟩ (some 97) = 15
      ∧ extraPerBay 10 60 ⟨800, 200, 900, 80, 96, 40, 200⟩ (some 136) = 50
      ∧ extraPerBay 10 60 ⟨800, 200, 900, 80, 96, 10, 200⟩ none = 0 := by decide

/-- Section 8.10: the scaled allocation and the one with a larger budget. -/
theorem test_worked_allocation :
    zoneGrants 500 [⟨0, 70, 0, 700⟩, ⟨3, 12, 240, 360⟩, ⟨5, 10, 300, 400⟩, ⟨7, 8, 120, 200⟩]
        = [(0, 700), (3, 302), (5, 328), (7, 170)]
      ∧ zoneGrants 1000 [⟨0, 70, 0, 700⟩, ⟨3, 12, 240, 360⟩, ⟨5, 10, 300, 400⟩, ⟨7, 8, 120, 200⟩]
        = [(0, 700), (3, 360), (5, 400), (7, 200)]
      ∧ (List.range 12).map (bayGrant 302 12) = [26, 26, 25, 25, 25, 25, 25, 25, 25, 25, 25, 25] := by decide

/-- The table of R3: the edges of a 4 × 3 floor. -/
theorem test_edges_of_four_by_three :
    edgeCount 4 3 = 17
      ∧ (List.range' 1 17).map (edgeBays 4 3) =
        [(1, 2), (2, 3), (3, 4), (5, 6), (6, 7), (7, 8), (9, 10), (10, 11), (11, 12), (1, 5), (2, 6), (3, 7), (4, 8),
          (5, 9), (6, 10), (7, 11), (8, 12)]
      ∧ eastEdge 4 4 = none ∧ eastEdge 4 7 = some 6 ∧ southEdge 4 3 8 = some 17 ∧ southEdge 4 3 9 = none := by decide

/-- R188: the two entries it works out for the merge of section 4.13. -/
theorem test_list_zone_entries :
    Zone.entry { Zone.newborn 4 0 .setup with life := .retiring, members := 2, anchor := some 1 } = [4, 254, 255]
      ∧ Zone.entry { Zone.newborn 9 0 .setup with life := .live, members := 4, anchor := some 2 } = [9, 4, 2] := by decide

/-- R38: the four end causes of a collection. -/
theorem test_pass_through_causes :
    (collect []).cause = .none ∧ (collect [⟨7, false, false⟩]).cause = .gap
      ∧ (collect (List.replicate 16 ⟨7, false, false⟩)).cause = .count
      ∧ (collect [⟨7, false, false⟩, ⟨8, true, false⟩]).cause = .bad
      ∧ (collect [⟨7, false, false⟩, ⟨8, true, false⟩]).collected = [7] := by decide

/-! ### A small floor: 2 × 2, bay 4 CORE, zone 0 with bays 1 and 3, zone 5 with bay 2 -/

def bay (tag : Nat) (next : Option Nat) : BayRec :=
  { BayRec.setup 10 with
    keyCounter := some 3, lastSent := some ⟨200, 42⟩, inputs := some ⟨false, 90, false⟩, tag := tag, nextTag := next
    level := some 800, target := some 800 }

def zone (tag members : Nat) (anchor : Option Nat) : Zone :=
  { Zone.newborn tag 0 .setup with
    life := .live, parent := none, members := members, anchor := anchor, vacancy := .running 100 900 }

def floor (state : FloorState) (seq : SeqState) (next : Option Nat) : Part :=
  { Part.cold with
    fm :=
      { state := state, grid := some ⟨2, 2, 10, 60, 2⟩, nr := 3, spine := [], rl := 24, clock := 100, surveyRounds := 0
        surveyOver := false, bays := [.roomable (bay 0 none), .roomable (bay 5 none), .roomable (bay 0 next), .core] }
    pmon := { Pmon.cold with
      edges := [⟨.sensed, .absent, .opened, none, .none, .opened⟩, newEdge true,
        ⟨.sensed, .present, .walled, none, .none, .walled⟩, newEdge true]
      baseline := some [.opened, .walled, .walled, .walled] }
    rsq := { Rsq.cold with seq := seq }
    zt := { slots := [some (zone 0 2 (some 1)), some (zone 5 1 (some 2))] ++ List.replicate 62 none, nextTag := 6, pins := [] }
    afa := { supply := some 60, ai := 30, timer := .running 100 30 } }

def running : State := ⟨floor .running .idle none, []⟩
def survey : State :=
  ⟨((floor .survey .idle none).mapPmon fun m => { m with baseline := none }).mapAfa fun a => { a with timer := .stopped }, []⟩

/-- A STEP-paced cutover of bay 3 into zone 5. -/
def cutting : State :=
  ⟨(floor .running .cutting (some 5)).mapCut fun c =>
    { c with list := [3], stepTimer := .running 100 2, deadline := .running 1800, run := some ⟨100, 1, 0⟩ }, []⟩

def solving : State :=
  ⟨(floor .running .solving none).mapRsq fun r =>
    { r with snapshot := some ⟨[.opened, .walled, .walled, .walled], false⟩ }, []⟩

/-- A state with its link rewritten. -/
def link (s : State) (g : Slu → Slu) : State := { s with part := s.part.mapSlu g }

/-- A state with its cell bus master rewritten. -/
def cell (s : State) (g : Cbm → Cbm) : State := { s with part := s.part.mapCbm g }

/-- A poll reply of bay 1 that is valid: FLAGS 0, TEMP 90, KEY 0x31, echoes 200 and 42. -/
def pollReply : List RxChar := [0, 90, 0x31, 200, 42, 130].map fun d => ⟨d, false, false⟩

/-! ### Commands run on the small floor -/

/-- R33: bay 1 leaves the drive-pending set at its valid drive reply. -/
theorem test_drive_reply_clears_pending :
    ((cell running fun c => { c with
        drivePending := [1], bus := .receiving (.drive 1 ⟨200, 42⟩) false [⟨0x3C, false, false⟩, ⟨0xC3, false, false⟩] }).part.endReception).cbm.drivePending = [] := by
  decide

/-- R114, R126: the step that moves bay 3 ends its cutover. -/
theorem test_step_ends_cutover :
    let p := ({ cutting.part with fm := { cutting.part.fm with clock := 102 } }).stepExpiry
    (p.fm.node? 3).map BayRec.tag = some 5 ∧ p.cut.list = [] ∧ p.rsq.seq = .idle
      ∧ (p.zt.zone? 5).map Zone.members = some 2 ∧ p.slu.queue = [⟨.cutoverDone 1 1 .paced 2, 102⟩] := by decide

/-- R192, its example: the reply of the batch that stops at entry 3. -/
theorem test_override_batch_cause :
    (floor .running .idle none).badEntry (2, 2) = some 2 ∧ (floor .running .idle none).badEntry (5, 1) = some 1
      ∧ (floor .running .idle none).badEntry (1, 3) = some 3 ∧ (floor .running .idle none).badEntry (1, 2) = none := by decide

/-- R68: an OPEN edge between bays 1 and 2 makes them one component, bay 3 another. -/
theorem test_components_of_small_floor :
    ((running.part.solveInput [.opened, .walled, .walled, .walled]).components) = [⟨1, [1, 2]⟩, ⟨3, [3]⟩] := by decide

/-- R73, R76: the plan of that floor continues zone 5 and bears a room for bay 3 from zone 0. -/
theorem test_plan_of_small_floor :
    let plan := (running.part.solveInput [.opened, .walled, .walled, .walled]).plan
    plan.kept = [(⟨1, [1, 2]⟩, 5)] ∧ plan.admitted = [(⟨3, [3]⟩, 0)] ∧ plan.retiring = [] := by decide

/-- 00_scope.md section 0.4: the floor clock wraps. -/
theorem test_clock_wraps : (0xFFFFFFFF : Clock) + 1 = 0 := by decide

/-! ### Witnesses: a state and operands that meet the hypotheses of each statement, clause by clause -/

theorem test_witness_StepRunsFrontCommand :
    ({ running with pending := [.frameGap, .fadeTick] } : State).pending = Instr.frameGap :: [Instr.fadeTick]
      ∧ State.reset.pending = [] := by decide

/-- ZonesValid by its bays taken from the list of nodes. -/
theorem zonesValid_of_nodes (p : Part) (slots : p.zt.slots.length = 64) (counter : 1 ≤ p.zt.nextTag ∧ p.zt.nextTag ≤ 250)
    (zones : ∀ z ∈ p.zt.zones, z.tag ≤ 250 ∧ SettingsValid z.settings) (pins : p.zt.pins.length ≤ 16)
    (levels : ∀ x ∈ p.fm.nodes, (∀ l ∈ x.2.level, l ≤ 1000) ∧ ∀ g ∈ x.2.target, g ≤ 1000) : ZonesValid p :=
  ⟨slots, counter, zones, pins, fun b r h => levels (b, r) ((FloorModel.mem_nodes p.fm b r).2 h)⟩

theorem test_witness_AssemblerHuntsAndCollects :
    State.reset.part.slu.assembler = .hunting
      ∧ (withAssembler running (.collecting [2])).part.slu.assembler = .collecting [2]
      ∧ (withAssembler running (.collecting [])).part.slu.assembler = .collecting []
      ∧ (withAssembler running (.collecting [2, 1])).part.slu.assembler = .collecting (2 :: [1])
      ∧ [(1 : Byte)].length < (2 : Byte).toNat
      ∧ (withAssembler running (.collecting [2, 1, 7])).part.slu.assembler = .collecting (2 :: 1 :: 7 :: [])
      ∧ ([] : List Byte).length + 2 = (2 : Byte).toNat
      ∧ (([2, 1, 7] ++ [0xF7] : List Byte).map BitVec.toNat).sum % 256 ≠ 0
      ∧ (withAssembler running (.collecting [2, 0x80, 7])).part.slu.assembler = .collecting (2 :: 0x80 :: 7 :: [])
      ∧ 0x80 ≤ (0x80 : Byte).toNat := by decide

theorem test_witness_FrameBytesRunRequest :
    (Instr.identify 7 []).request? = some (1, 7, []) ∧ (Instr.identify 7 []).wellFormed = true
      ∧ (Instr.restart 7 (List.replicate 196 0)).request? = some (0x14, 7, List.replicate 196 0)
      ∧ (Instr.restart 7 (List.replicate 196 0)).wellFormed = true ∧ State.reset.part.slu.assembler = .hunting := by
  decide +kernel

theorem test_witness_UnknownKindIsAnswered :
    State.reset.part.slu.inFlight = none
      ∧ ∀ kind ∈ ([0x15, 0x16, 0x7E, 0x7F] : List Byte), 0x15 ≤ kind.toNat ∧ kind.toNat ≤ 0x7F := by decide

/-- A request in flight: its reply being sent, with the overlap slot free and full; and a pass-through that waits. -/
theorem test_witness_RequestInFlightMeansOverlap :
    (link running fun u => { u with inFlight := some ⟨5, 1⟩ }).part.slu.inFlight = some ⟨5, 1⟩
      ∧ (link running fun u => { u with inFlight := some ⟨5, 1⟩ }).part.slu.tx = .idle
      ∧ (link running fun u => { u with inFlight := some ⟨5, 1⟩ }).part.slu.replySlot = none
      ∧ (link running fun u => { u with inFlight := some ⟨5, 1⟩ }).part.slu.overlapSlot = none
      ∧ (link running fun u => { u with
          inFlight := some ⟨5, 1⟩, replySlot := some ⟨0x85, 1, [1, 0]⟩, tx := .sending .reply ⟨0x85, 1, [1, 0]⟩ }).part.slu.tx
        ≠ .idle
      ∧ (link running fun u => { u with
          inFlight := some ⟨5, 1⟩, tx := .sending .report ⟨0xC0, 0, []⟩, overlapSlot := some ⟨0x81, 2, [11, 0]⟩ }).part.slu.tx
        ≠ .idle
      ∧ (Instr.identify 9 []).request? = some (1, 9, []) ∧ (Instr.identify 9 []).wellFormed = true := by decide

theorem test_witness_RefusedRequestChangesNothing :
    ∃ t, exec (.solve 1 []) State.reset = .next t ∧ State.reset.part.slu.inFlight = none
      ∧ State.reset.part.slu.replySlot = none ∧ (Instr.solve 1 []).request? = some (5, 1, [])
      ∧ t.part.slu.replySlot = some ⟨5 + 0x80, 1, 5 :: [0]⟩ ∧ (5 : Byte) ≠ 0 ∧ (5 : Byte) ≠ 1 ∧ (5 : Byte) ≠ 2
      ∧ (5 : Byte) ≠ 0x0A :=
  ⟨_, rfl, by decide⟩

/-- A body of wrong form for every kind, and one of right form for every kind that needs a floor. -/
theorem test_witness_RefusedRequestChangesNothing_form :
    (∀ c ∈ [Instr.identify 1 [0], .setupFloor 1 [], .setAuto 1 [], .solve 1 [0], .setPacing 1 [], .hasten 1 [0], .setSupply 1 [],
        .setZone 1 [], .readZone 1 [], .listZones 1 [0], .readBay 1 [], .readEdges 1 [], .readChanges 1 [], .pinKeypad 1 [],
        .unpinKeypad 1 [], .passThrough 1 [1], .setReports 1 [], .restart 1 []],
      formFault c = some 0 ∧ c.request?.isSome = true)
    ∧ formFault (.setRoles 1 [24]) = some 2 ∧ formFault (.setRoles 1 (24 :: 33 :: List.replicate 33 1)) = some 2
    ∧ formFault (.overrideEdges 1 [0]) = some 1 ∧ formFault (.overrideEdges 1 (49 :: List.replicate 147 0)) = some 1
    ∧ State.reset.part.fm.state = .unconfigured
    ∧ ∀ c ∈ [Instr.setRoles 1 [24, 0], .solve 1 [], .setSupply 1 [0, 0, 0, 0], .setZone 1 (List.replicate 12 0), .readZone 1 [0],
        .listZones 1 [], .readBay 1 [1], .readEdges 1 [0, 1, 1], .readChanges 1 [0, 0], .overrideEdges 1 [1, 0, 1, 1],
        .pinKeypad 1 [1, 0], .unpinKeypad 1 [1], .passThrough 1 [1, 2]],
      formFault c = none ∧ c.wellFormed = true ∧ (c.request?.any fun q => decide (q.1 ∈ floorKinds)) = true := by
  decide +kernel

/-- A report under way, with each of the choices that follow it. -/
def afterReport (reply overlap : Option Frame) (first : Bool) (queue : List Record) : State :=
  link running fun u => { u with
    tx := .sending .report ⟨0xC0, 0, [1, 0, 0, 0, 0, 0]⟩, replySlot := reply, overlapSlot := overlap, overlapFirst := first
    queue := queue, inFlight := reply.map fun f => ⟨f.kind, f.number⟩ }

theorem test_witness_TransmitterChoosesNextFrame :
    ∀ s ∈ [afterReport (some ⟨0x85, 1, [1, 0]⟩) none false [], afterReport (some ⟨0x85, 1, [1, 0]⟩) (some ⟨0x81, 2, [11, 0]⟩) false [],
        afterReport (some ⟨0x85, 1, [1, 0]⟩) (some ⟨0x81, 2, [11, 0]⟩) true [], afterReport none (some ⟨0x81, 2, [11, 0]⟩) false [],
        afterReport none none false [⟨.nodeBack 1, 100⟩], afterReport none none false []],
      s.part.slu.tx = .sending .report ⟨0xC0, 0, [1, 0, 0, 0, 0, 0]⟩ ∧ TxSource.report ≠ TxSource.reply := by decide

/-- A reply under way, with the restart it owes. -/
def replyUnderWay (s : State) (owed : Option RestartOption) : State :=
  link s fun u => { u with
    tx := .sending .reply ⟨0x94, 1, [0, 0, 1]⟩, inFlight := some ⟨0x14, 1⟩, replySlot := some ⟨0x94, 1, [0, 0, 1]⟩
    restartOwed := owed }

theorem test_witness_ReplySentEndsRequest :
    (replyUnderWay running none).part.slu.tx = .sending .reply ⟨0x94, 1, [0, 0, 1]⟩
      ∧ (replyUnderWay running none).part.slu.restartOwed = none
      ∧ (replyUnderWay running (some .cold)).part.slu.tx = .sending .reply ⟨0x94, 1, [0, 0, 1]⟩
      ∧ (replyUnderWay running (some .cold)).part.slu.restartOwed = some .cold := by decide

/-- A warm restart over an idle floor, over a cutover, and in the survey. -/
theorem test_witness_WarmRestartKeepsSetupAndClearsWork :
    ∀ s ∈ [running, cutting, survey],
      (replyUnderWay s (some .warm)).part.slu.tx = .sending .reply ⟨0x94, 1, [0, 0, 1]⟩
        ∧ (replyUnderWay s (some .warm)).part.slu.restartOwed = some .warm
        ∧ (s.part.fm.node? 3).isSome = true ∧ (s.part.zt.zone? 5).map Zone.life = some .live
        ∧ s.part.pmon.edge? 1 = some ⟨.sensed, .absent, .opened, none, .none, .opened⟩
        ∧ ((s.part.fm.state = .running ∧ s.part.rsq.seq ≠ .idle) ∨ (s.part.fm.state = .running ∧ s.part.rsq.seq = .idle)
          ∨ s.part.fm.state = .survey) := by decide

/-- A SETTLED monitor that owes a solve, with auto on and off, and a net change set that waits. -/
theorem test_witness_WarmRestartKeepsSetupAndClearsWork_monitor :
    (∀ auto ∈ [true, false],
      let m := { running.part.pmon with owed := true, auto := auto }
      m.owed = true ∧ running.part.fm.state = .running ∧ running.part.rsq.seq = .idle ∧ m.auto = auto)
    ∧ (let m := { running.part.pmon with netChange := [1], monitor := .unsettled }
      m.owed = false ∧ m.netChange ≠ []) := by decide

theorem test_witness_ReportIsDroppedLostOrQueued :
    ¬ Enabled { running.part.slu with mask := List.replicate 11 false } 1 ∧ Enabled running.part.slu 11
      ∧ 16 ≤ (List.replicate 16 (⟨.nodeBack 1, 100⟩ : Record)).length
      ∧ (List.replicate 15 (⟨.nodeBack 1, 100⟩ : Record)).length < 16 ∧ running.part.slu.queue.length < 16 := by
  unfold Enabled; decide

theorem test_witness_IdentifyReportsAndChangesNothing : running.part.slu.inFlight = none := rfl

/-- A SETUP FLOOR body of a 4 × 3 floor whose first bitmap byte is `map`, with the three constants. -/
def setupBody (cols rows map v qmax sr : Byte) : List Byte := [cols, rows, map] ++ List.replicate 23 0 ++ [v, qmax, sr]

theorem test_witness_SetupFloorBuildsNewFloor :
    let body := setupBody 4 3 0x81 0 0 0
    let core : Nat → Bool := fun b => coreBit ((body.drop 2).take 24) b
    running.part.slu.inFlight = none ∧ body.length = 29 ∧ SetupConsidered running ∧ SetupConsidered State.reset
      ∧ running.part.cbm.passSlot = none ∧ SetupValid ⟨4, 3, 10, 60, 2⟩ core ∧ core 2 = false
      ∧ (∀ b, 1 ≤ b → b < 2 → core b = true) := by
  refine ⟨rfl, by decide, Or.inr rfl, Or.inl rfl, rfl, ⟨by decide, by decide, ?_, ⟨2, by decide⟩, by decide, by decide, by decide⟩, by decide, ?_⟩
  · have h : ∀ b, b ≤ 192 → 12 < b → coreBit (((setupBody 4 3 0x81 0 0 0).drop 2).take 24) b = false := by decide +kernel
    exact fun b h1 h2 => h b h2 h1
  · intro b h1 h2
    obtain rfl : b = 1 := by omega
    decide

/-- One body for each refusal, at the bounds of its field. -/
theorem test_witness_SetupFloorRefusals :
    (setupBody 4 3 0 0 0 0 ++ [0]).length ≠ 29 ∧ (∀ m c r v q s, (setupBody c r m v q s).length = 29)
      ∧ ¬ SetupConsidered solving ∧ SetupConsidered running
      ∧ (∀ c ∈ ([1, 17] : List Byte), ¬ (2 ≤ c.toNat ∧ c.toNat ≤ 16)) ∧ (∀ r ∈ ([1, 13] : List Byte), ¬ (2 ≤ r.toNat ∧ r.toNat ≤ 12))
      ∧ (4 < 5 ∧ 5 ≤ 192 ∧ coreBit ((setupBody 2 2 0x10 0 0 0).drop 2 |>.take 24) 5 = true)
      ∧ (∀ b, b ≤ 4 → 1 ≤ b → coreBit ((setupBody 2 2 0x0F 0 0 0).drop 2 |>.take 24) b = true)
      ∧ (∀ v ∈ ([4, 41] : List Byte), v.toNat ≠ 0 ∧ ¬ (5 ≤ v.toNat ∧ v.toNat ≤ 40))
      ∧ (∀ q ∈ ([19, 251] : List Byte), q.toNat ≠ 0 ∧ ¬ (10 + 10 ≤ q.toNat ∧ q.toNat ≤ 250)) ∧ ¬ (9 : Byte).toNat ≤ 8 := by
  refine ⟨by decide, fun _ _ _ _ _ _ => rfl, ?_, Or.inr rfl, by decide, by decide, by decide, by decide, by decide, by decide,
    by decide⟩
  unfold SetupConsidered
  decide

theorem test_witness_SetRolesReplacesRoles :
    (∀ s ∈ [running, survey, cutting], s.part.slu.inFlight = none ∧ s.part.fm.state ≠ .unconfigured ∧ s.part.rsq.seq ≠ .solving
      ∧ ∀ x ∈ ([3, 1, 3] : List Byte), (s.part.fm.node? x.toNat).isSome = true)
      ∧ (3 : Byte).toNat = [3, 1, 3].length ∧ (32 : Byte).toNat = (List.replicate 32 (1 : Byte)).length
      ∧ (0 : Byte).toNat = ([] : List Byte).length ∧ 2 ≤ (2 : Byte).toNat ∧ (96 : Byte).toNat ≤ 96 := by decide

/-- A refusal of each kind: no floor, a solve under way, an entry that is CORE after one that is not, RL at its bounds. -/
theorem test_witness_SetRolesReplacesRoles_refused :
    State.reset.part.slu.inFlight = none ∧ State.reset.part.fm.state = .unconfigured
      ∧ solving.part.slu.inFlight = none ∧ solving.part.fm.state ≠ .unconfigured ∧ solving.part.rsq.seq = .solving
      ∧ (running.part.fm.node? (([3, 4] : List Byte).getD 0 0).toNat).isSome = true
      ∧ (running.part.fm.node? (([3, 4] : List Byte).getD 1 0).toNat).isSome = false
      ∧ (1 : Byte).toNat < 2 ∧ 96 < (97 : Byte).toNat := by decide

theorem test_witness_SetReportsWritesMask :
    State.reset.part.slu.inFlight = none ∧ (List.replicate 10 (1 : Byte)).length ≠ 11
      ∧ (List.replicate 10 (1 : Byte) ++ [2]).length = 11
      ∧ (∀ j, j < 10 → (List.replicate 10 (1 : Byte) ++ [2]).getD j 0 = 0 ∨ (List.replicate 10 (1 : Byte) ++ [2]).getD j 0 = 1)
      ∧ (List.replicate 10 (1 : Byte) ++ [2]).getD 10 0 = 2
      ∧ ([2] ++ List.replicate 10 (1 : Byte)).getD 0 0 = 2
      ∧ (∀ x ∈ [0] ++ List.replicate 10 (1 : Byte), x = 0 ∨ x = 1) := by decide

theorem test_witness_RestartIsOwedUntilReplySent :
    State.reset.part.slu.inFlight = none ∧ (0 : Byte) ≠ 1 ∧ (0 : Byte) ≠ 2 ∧ (3 : Byte) ≠ 1 ∧ (3 : Byte) ≠ 2 := by decide

/-- Auto off under a SETTLED monitor: switching it on starts a solve. -/
def settledAutoOff : State :=
  { running with part := running.part.mapPmon fun m => { m with auto := false, monitor := .settled } }

theorem test_witness_SetAutoWritesAutoAndQuietTime :
    running.part.slu.inFlight = none ∧ (2 : Byte) ≠ 0 ∧ (2 : Byte) ≠ 1
      ∧ settledAutoOff.part.slu.inFlight = none ∧ settledAutoOff.part.pmon.auto = false
      ∧ settledAutoOff.part.fm.state = .running ∧ settledAutoOff.part.pmon.monitor = .settled
      ∧ settledAutoOff.part.rsq.seq = .idle ∧ ¬ running.part.pmon.auto = false := by decide

theorem test_witness_SolveStartsOrIsDeferred :
    (survey.part.slu.inFlight = none ∧ survey.part.fm.state ≠ .running)
      ∧ (running.part.slu.inFlight = none ∧ running.part.fm.state = .running ∧ running.part.rsq.seq = .idle)
      ∧ (solving.part.slu.inFlight = none ∧ solving.part.fm.state = .running ∧ solving.part.rsq.seq = .solving)
      ∧ (cutting.part.slu.inFlight = none ∧ cutting.part.fm.state = .running ∧ cutting.part.rsq.seq = .cutting) := by decide

theorem test_witness_SetPacingWritesParameters :
    running.part.slu.inFlight = none ∧ running.part.rsq.seq ≠ .cutting ∧ 2 < (3 : Byte).toNat
      ∧ Pacing.block.code = 0 ∧ Pacing.step.code = 1 ∧ Pacing.vacant.code = 2 := by decide

/-- A cutover of two bays, the step timer at the end of its span. -/
def cuttingTwo : State :=
  { cutting with part := (cutting.part.modifyNode 1 fun r => { r with nextTag := some 5 }).mapCut fun c =>
      { c with list := [1, 3], stepTimer := .running 99 2 } }

theorem test_witness_SetPacingActsOnCutover :
    cutting.part.slu.inFlight = none ∧ cutting.part.rsq.seq = .cutting ∧ 3 ∈ cutting.part.cut.list ∧ 2 < (3 : Byte).toNat
      ∧ cutting.part.fm.node? 3 = some (bay 0 (some 5)) ∧ (bay 0 (some 5)).nextTag = some 5
      ∧ cutting.part.cut.run = some ⟨100, 1, 0⟩ ∧ cutting.part.zt.pins = [] ∧ Enabled cutting.part.slu 5
      ∧ cutting.part.slu.queue.length < 16 ∧ cutting.part.cut.list = cutting.part.movingBays
      ∧ (cutting.part.mapCut fun c => { c with deadline := .passed }).cut.deadline = .passed := by
  unfold Enabled; decide

/-- A limit moved to 60 seconds one second before the second it falls in, in that second, and one second after it. -/
theorem test_witness_SetPacingActsOnCutover_deadline :
    ((159 : Clock) - 100).toNat < 60 ∧ ((160 : Clock) - 100).toNat = 60 ∧ 60 < ((161 : Clock) - 100).toNat
      ∧ MovedDeadline 159 (some ⟨100, 1, 0⟩) 60 (.running 1800) (.running 60)
      ∧ MovedDeadline 160 (some ⟨100, 1, 0⟩) 60 (.running 1800) (.running 60)
      ∧ MovedDeadline 160 (some ⟨100, 1, 0⟩) 60 (.running 1800) .passed
      ∧ MovedDeadline 161 (some ⟨100, 1, 0⟩) 60 (.running 1800) .passed
      ∧ MovedDeadline 100 (some ⟨100, 1, 0⟩) 60 .passed .passed ∧ MovedDeadline 100 none 60 .stopped .stopped := by
  unfold MovedDeadline; decide

/-- Of two listed bays, one SILENT; and a list whose every bay is SILENT. -/
theorem test_witness_SetPacingActsOnCutover_silent :
    let one := cuttingTwo.part.modifyNode 1 fun r => { r with health := .silent }
    silentOf one = [1] ∧ answeringOf one = [3] ∧ one.cut.list = one.movingBays ∧ one.rsq.seq = .cutting
      ∧ silentOf (one.modifyNode 3 fun r => { r with health := .silent }) = [1, 3]
      ∧ answeringOf (one.modifyNode 3 fun r => { r with health := .silent }) = [] ∧ answeringOf cutting.part = [3] := by decide

theorem test_witness_HastenEndsCutover :
    (running.part.slu.inFlight = none ∧ running.part.rsq.seq ≠ .cutting)
      ∧ cutting.part.slu.inFlight = none ∧ cutting.part.rsq.seq = .cutting ∧ cutting.part.cut.run = some ⟨100, 1, 0⟩
      ∧ cutting.part.zt.pins = [] ∧ Enabled cutting.part.slu 5 ∧ cutting.part.slu.queue.length < 16
      ∧ cutting.part.cut.list.Nodup ∧ cutting.part.fm.node? 3 = some (bay 0 (some 5)) ∧ cutting.part.cut.list = [3]
      ∧ 1 ∉ cutting.part.cut.list ∧ cutting.part.fm.node? 1 = some (bay 0 none) := by
  unfold Enabled; decide

theorem test_witness_SetSupplyClampsAndAllocates :
    (State.reset.part.slu.inFlight = none ∧ State.reset.part.fm.state = .unconfigured)
      ∧ (∀ s ∈ [running, survey], s.part.slu.inFlight = none ∧ s.part.fm.state ≠ .unconfigured)
      ∧ running.part.zt.tags.Nodup ∧ (mannedZones running.part).map Zone.tag = [0, 5]
      ∧ heatCalls running.part = [] ∧ heatCalls (running.part.mapZt (·.modifyZone 5 fun z =>
          { z with settings := { z.settings with heatSetpoint := 91 } })) = [.heatCall 5 true (some 90)] := by decide

theorem test_witness_SetZoneClampsAndRetargets :
    (State.reset.part.slu.inFlight = none ∧ State.reset.part.fm.state = .unconfigured
      ∧ (List.replicate 11 (1 : Byte)).length ≠ 12 ∧ (List.replicate 13 (1 : Byte)).length ≠ 12
      ∧ (List.replicate 12 (251 : Byte)).length = 12 ∧ running.part.zt.zone? ((List.replicate 12 (251 : Byte)).getD 0 0).toNat = none
      ∧ running.part.zt.zone? ((List.replicate 12 (1 : Byte)).getD 0 0).toNat = none)
    ∧ ∀ s ∈ [running, survey], s.part.slu.inFlight = none ∧ s.part.fm.state ≠ .unconfigured
      ∧ s.part.zt.zone? (0 : Byte).toNat = some (zone 0 2 (some 1)) ∧ s.part.zt.zone? (5 : Byte).toNat = some (zone 5 1 (some 2)) := by
  decide

/-- Zone 5 with another vacancy timer. -/
def withVacancy (t : Timer) : State := { running with part := running.part.mapZt (·.modifyZone 5 fun z => { z with vacancy := t }) }

theorem test_witness_ReadZoneShowsRecord :
    (State.reset.part.slu.inFlight = none ∧ State.reset.part.fm.state = .unconfigured ∧ running.part.zt.zone? (1 : Byte).toNat = none
      ∧ running.part.zt.zone? (251 : Byte).toNat = none)
    ∧ ∀ timer ∈ [Timer.stopped, .held, .running 100 900, .running 99 1],
      (withVacancy timer).part.slu.inFlight = none ∧ (withVacancy timer).part.fm.state ≠ .unconfigured
        ∧ (withVacancy timer).part.zt.zone? (5 : Byte).toNat = some { zone 5 1 (some 2) with vacancy := timer } := by decide

theorem test_witness_ListZonesCodesLifeState :
    State.reset.part.slu.inFlight = none ∧ State.reset.part.fm.state = .unconfigured
      ∧ running.part.slu.inFlight = none ∧ running.part.fm.state ≠ .unconfigured := by decide

theorem test_witness_ReadBayShowsRecord :
    State.reset.part.slu.inFlight = none ∧ State.reset.part.fm.state = .unconfigured ∧ running.part.slu.inFlight = none ∧ running.part.fm.state ≠ .unconfigured
      ∧ running.part.fm.bay? (0 : Byte).toNat = none ∧ running.part.fm.bay? (5 : Byte).toNat = none
      ∧ running.part.fm.bay? (4 : Byte).toNat = some .core
      ∧ running.part.fm.bay? (1 : Byte).toNat = some (.roomable (bay 0 none)) := by decide

theorem test_witness_ReadEdgesAndChangesShowPartitions :
    State.reset.part.slu.inFlight = none ∧ State.reset.part.fm.state = .unconfigured ∧ EdgesValid running.part
      ∧ newEdge true ∈ running.part.pmon.edges ∧ (newEdge true).kind = .fixed ∧ running.part.slu.inFlight = none ∧ running.part.fm.state ≠ .unconfigured ∧ running.part.pmon.edges.length = 4
      ∧ running.part.pmon.edges.length < (0 : Byte).toNat * 256 + (5 : Byte).toNat
      ∧ 1 ≤ (0 : Byte).toNat * 256 + (1 : Byte).toNat ∧ (0 : Byte).toNat * 256 + (4 : Byte).toNat ≤ 4
      ∧ 64 < (65 : Byte).toNat ∧ 1 ≤ (1 : Byte).toNat ∧ (64 : Byte).toNat ≤ 64 := by
  unfold EdgesValid; decide

/-- A batch applied whole, and batches that stop at a bad entry of each cause, the first entry among them. -/
theorem test_witness_OverrideBatchStopsAtBadEntry :
    running.part.slu.inFlight = none ∧ running.part.fm.state ≠ .unconfigured
      ∧ overrideEntries [0, 1, 2, 0, 3, 0] = [(1, 2), (3, 0)] ++ []
      ∧ overrideEntries [0, 1, 2, 0, 5, 0] = [(1, 2)] ++ (5, 0) :: []
      ∧ overrideEntries [0, 4, 1] = [] ++ (4, 1) :: [] ∧ overrideEntries [0, 1, 3] = [] ++ (1, 3) :: []
      ∧ overrideEntries [0, 0, 1] = [] ++ (0, 1) :: []
      ∧ [0, 1, 2, 0, 3, 0].length = 3 * (2 : Byte).toNat ∧ (List.replicate 144 (0 : Byte)).length = 3 * (48 : Byte).toNat
      ∧ running.part.pmon.edge? 1 = some ⟨.sensed, .absent, .opened, none, .none, .opened⟩
      ∧ running.part.pmon.edge? 3 = some ⟨.sensed, .present, .walled, none, .none, .walled⟩
      ∧ running.part.pmon.edge? 0 = none ∧ running.part.pmon.edge? 5 = none ∧ running.part.pmon.edge? 4 = some (newEdge true)
      ∧ ¬ 3 ≤ 2 := by decide +kernel

theorem test_witness_OverrideBatchStopsAtBadEntry_refused :
    State.reset.part.slu.inFlight = none ∧ State.reset.part.fm.state = .unconfigured ∧ (0 : Byte).toNat = 0
      ∧ 48 < (49 : Byte).toNat ∧ ([0, 1] : List Byte).length ≠ 3 * (1 : Byte).toNat
      ∧ ([0, 1, 1] : List Byte).length = 3 * (1 : Byte).toNat := by decide

/-- Edge 1 forced WALLED against an OPEN baseline, the monitor as given. -/
def forced (monitor : Monitor) (owed : Bool) : State :=
  { running with part := running.part.mapPmon fun m => { m with
      edges := ⟨.sensed, .absent, .opened, none, .forceWall, .walled⟩ :: m.edges.drop 1, netChange := [1], monitor := monitor
      owed := owed } }

theorem test_witness_EffectiveChangeMovesMonitor :
    (running.part.slu.inFlight = none ∧ running.part.fm.state = .running
      ∧ running.part.pmon.baseline = some [.opened, .walled, .walled, .walled] ∧ (1 : Byte).toNat ≤ 2
      ∧ running.part.pmon.edge? 1 = some ⟨.sensed, .absent, .opened, none, .none, .opened⟩ ∧ EdgeState.walled ≠ .opened)
      ∧ ∀ s ∈ [forced .unsettled false, forced .unsettled true, forced .settled false], s.part.slu.inFlight = none
        ∧ s.part.fm.state = .running ∧ s.part.pmon.baseline = some [.opened, .walled, .walled, .walled]
        ∧ s.part.pmon.edge? 1 = some ⟨.sensed, .absent, .opened, none, .forceWall, .walled⟩ ∧ EdgeState.opened ≠ .walled
        ∧ (s.part.applyOverride (1, 0)).pmon.netChange = [] := by decide

/-- Sixteen pins, none of them bay 1's. -/
def pinned : State := { running with part := running.part.mapZt fun t => { t with pins := (List.range' 2 16).map fun b => ⟨b, 0⟩ } }

theorem test_witness_KeypadPinsAreWrittenAndRemoved :
    State.reset.part.slu.inFlight = none ∧ State.reset.part.fm.state = .unconfigured ∧ running.part.slu.inFlight = none ∧ running.part.fm.state ≠ .unconfigured ∧ pinned.part.slu.inFlight = none
      ∧ pinned.part.fm.state ≠ .unconfigured ∧ running.part.fm.node? (4 : Byte).toNat = none
      ∧ (running.part.fm.node? (1 : Byte).toNat).isSome = true ∧ running.part.zt.zone? (9 : Byte).toNat = none
      ∧ (running.part.zt.zone? (5 : Byte).toNat).isSome = true ∧ (∀ x ∈ pinned.part.zt.pins, x.bay ≠ (1 : Byte).toNat)
      ∧ 16 ≤ pinned.part.zt.pins.length ∧ running.part.zt.pins.length < 16
      ∧ running.part.zt.pins.find? (fun x => x.bay == (1 : Byte).toNat) = none
      ∧ pinned.part.zt.pins.find? (fun x => x.bay == (2 : Byte).toNat) = some ⟨2, 0⟩
      ∧ (pinned.part.fm.node? (2 : Byte).toNat).isSome = true ∧ (pinned.part.zt.zone? (5 : Byte).toNat).isSome = true
      ∧ pinned.part.zt.pins.Pairwise (fun x y => x.bay < y.bay) ∧ (∀ x ∈ running.part.zt.pins, x.bay ≠ (1 : Byte).toNat) := by
  decide

theorem test_witness_PassThroughWaitsForExchange :
    (State.reset.part.slu.inFlight = none ∧ State.reset.part.fm.state = .unconfigured ∧ ([1] : List Byte).length < 2
      ∧ 13 < (List.replicate 14 (1 : Byte)).length ∧ running.part.fm.node? (([4, 7] : List Byte).getD 0 0).toNat = none
      ∧ running.part.fm.node? ((List.replicate 13 (0 : Byte)).getD 0 0).toNat = none)
    ∧ running.part.slu.inFlight = none ∧ running.part.slu.replySlot = none ∧ running.part.fm.state ≠ .unconfigured
      ∧ (running.part.fm.node? (3 : Byte).toNat).isSome = true ∧ 1 ≤ [(0 : Byte)].length
      ∧ (List.replicate 12 (0 : Byte)).length ≤ 12 := by decide

/-- Reception open for a poll of bay 1 that has brought these characters. -/
def polling (chars : List RxChar) : State := cell running fun c => { c with bus := .receiving (.poll 1) false chars }

theorem test_witness_ReceptionRecordsCharacters :
    (cell running fun c => { c with bus := .sending (.poll 1) false }).part.cbm.bus = .sending (.poll 1) false
      ∧ running.part.cbm.bus = .quiet ∧ PollOrDrive 1 (.poll 1) 6 none ∧ PollOrDrive 1 (.drive 1 ⟨0, 0⟩) 2 (some 0x3C)
      ∧ (∀ n ∈ [0, 14, 15], (polling (List.replicate n ⟨7, false, false⟩)).part.cbm.bus
          = .receiving (.poll 1) false (List.replicate n ⟨7, false, false⟩)) :=
  ⟨rfl, rfl, .poll, .drive _, by decide⟩

/-- A pass-through's reception: the last character recorded after a bad first one and after sixteen clean ones, and the
character that ends each. -/
theorem test_witness_ReceptionRecordsCharacters_pass :
    let clean : RxChar := ⟨7, false, false⟩
    let bad : RxChar := ⟨8, true, false⟩
    let collecting : List RxChar → Nat := fun all =>
      let n := (all.takeWhile fun c => !c.mark && !c.stopLow).length
      if 16 ≤ n then 16 else min all.length (n + 1)
    (cell running fun c => { c with bus := .receiving (.pass 3 [0x31]) false [bad] }).part.cbm.bus
        = .receiving (.pass 3 [0x31]) false [bad]
      ∧ (bad :: List.replicate 15 clean).length < collecting (bad :: List.replicate 15 clean) + 16
      ∧ collecting (bad :: List.replicate 16 clean) + 16 ≤ (bad :: List.replicate 16 clean).length
      ∧ (List.replicate 31 clean).length < collecting (List.replicate 31 clean) + 16
      ∧ collecting (List.replicate 32 clean) + 16 ≤ (List.replicate 32 clean).length := by decide +kernel

/-- Bay 1 with another health and failure count. -/
def failing (health : Health) (failures : Nat) (chars : List RxChar) : State :=
  { polling chars with part := (polling chars).part.modifyNode 1 fun r => { r with health := health, failures := failures } }

/-- The four causes of failure, and the health records that a failure finds. -/
theorem test_witness_FailedTransactionCountsTowardSilent :
    FailedReply 1 6 none [] .noReply ∧ FailedReply 1 6 none [⟨0, true, false⟩] .framing
      ∧ FailedReply 1 6 none (pollReply ++ [⟨0, false, false⟩]) .framing ∧ FailedReply 1 6 none (pollReply.take 5) .short
      ∧ FailedReply 1 6 none (List.replicate 6 ⟨0, false, false⟩) .check
      ∧ FailedReply 1 2 (some 0x3C) [⟨0x3D, false, false⟩, ⟨0xC2, false, false⟩] .check
      ∧ PollOrDrive 1 (.poll 1) 6 none
      ∧ (∀ x ∈ [(Health.ok, 0), (.ok, 1), (.ok, 2), (.silent, 3)], (failing x.1 x.2 []).part.cbm.bus = .receiving (.poll 1) false []
        ∧ (failing x.1 x.2 []).part.fm.node? 1 = some { bay 0 none with health := x.1, failures := x.2 })
      ∧ eastEdge running.part.fm.cols 1 = some 1 ∧ southEdge running.part.fm.cols running.part.fm.rows 1 = some 3 := by
  refine ⟨Or.inl ⟨rfl, rfl⟩, Or.inr (Or.inl ⟨by decide, Or.inl ?_, rfl⟩), Or.inr (Or.inl ⟨by decide, Or.inr (by decide), rfl⟩),
    Or.inr (Or.inr (Or.inl ⟨by decide, ?_, by decide, rfl⟩)), Or.inr (Or.inr (Or.inr ⟨by decide, ?_, rfl, Or.inl ?_, rfl⟩)),
    Or.inr (Or.inr (Or.inr ⟨by decide, ?_, rfl, Or.inr ⟨0x3C, rfl, by decide⟩, rfl⟩)), .poll, by decide, by decide, by decide⟩
  all_goals first | (unfold AllClean; decide) | (unfold SumHolds; decide)

/-- A valid poll of bay 1: OK outside the drive-pending set with another pair sent last, OK with the same pair, and SILENT. -/
theorem test_witness_ValidPollStoresReply :
    ValidReply 1 6 none pollReply
      ∧ (failing .ok 2 pollReply).part.cbm.bus = .receiving (.poll 1) false pollReply
      ∧ (failing .ok 2 pollReply).part.fm.node? 1 = some { bay 0 none with failures := 2 }
      ∧ (failing .silent 3 pollReply).part.fm.node? 1 = some { bay 0 none with health := .silent, failures := 3 }
      ∧ 1 ∉ running.part.cbm.drivePending ∧ (⟨201, 42⟩ : Pair) ≠ ⟨dataAt pollReply 3, dataAt pollReply 4⟩
      ∧ ((polling pollReply).part.modifyNode 1 fun r => { r with lastSent := some ⟨201, 42⟩ }).fm.node? 1 =
          some { bay 0 none with lastSent := some ⟨201, 42⟩ }
      ∧ eastEdge running.part.fm.cols 1 = some 1
      ∧ running.part.pmon.edge? 1 = some ⟨.sensed, .absent, .opened, none, .none, .opened⟩ := by
  refine ⟨⟨?_, rfl, by decide, ?_, fun b h => by simp at h⟩, by decide, by decide, by decide, by decide, by decide, by decide, by decide,
    by decide⟩
  · unfold AllClean; decide
  · unfold SumHolds; decide

/-- A VACANT-paced cutover of these bays, with bay 1 polled. -/
def vacating (bays : List Nat) (health : Health) (failures : Nat) (chars : List RxChar) : State :=
  { cuttingTwo with part := ((cuttingTwo.part.modifyNode 1 fun r => { r with health := health, failures := failures }).mapCbm
      fun c => { c with bus := .receiving (.poll 1) false chars }).mapCut fun c => { c with mode := .vacant, list := bays } }

/-- Bay 1 listed alone and with another, visited by a clear flag, and failing for the third time. -/
theorem test_witness_visit_of_vacant_cutover :
    ∀ bays ∈ [[1], [1, 3]],
      ∀ s ∈ [vacating bays .ok 0 pollReply, vacating bays .ok 2 []], s.part.rsq.seq = .cutting ∧ s.part.cut.mode = .vacant
        ∧ 1 ∈ s.part.cut.list ∧ (s.part.fm.node? 1).bind BayRec.nextTag = some 5 ∧ (dataAt pollReply 0).getLsbD 2 = false
        ∧ (s.part.cut.list.filter fun x => x ≠ 1) = bays.drop 1 := by decide

/-- A poll reply of bay 1 with the occupied flag and both contacts set and key TOGGLE under a new counter. -/
def keyedReply : List RxChar := [7, 90, 0x41, 200, 42, 107].map fun d => ⟨d, false, false⟩

/-- The edges of bay 1 with a candidate one report short of settling. -/
def settling : State :=
  { polling keyedReply with part := (polling keyedReply).part.mapPmon fun m => { m with
      edges := [⟨.sensed, .absent, .opened, some ⟨true, 1⟩, .none, .opened⟩, newEdge true,
        ⟨.sensed, .absent, .opened, some ⟨true, 1⟩, .none, .opened⟩, newEdge true]
      baseline := some [.opened, .walled, .opened, .walled] } }

theorem test_witness_ValidPollStoresReply_contacts :
    ValidReply 1 6 none keyedReply ∧ settling.part.cbm.bus = .receiving (.poll 1) false keyedReply
      ∧ eastEdge settling.part.fm.cols 1 = some 1 ∧ southEdge settling.part.fm.cols settling.part.fm.rows 1 = some 3
      ∧ (dataAt keyedReply 0).getLsbD 0 = true ∧ (dataAt keyedReply 0).getLsbD 1 = true ∧ (dataAt keyedReply 0).getLsbD 2 = true
      ∧ (dataAt keyedReply 2).toNat / 16 = 4 ∧ (dataAt keyedReply 2).toNat % 16 = 1 ∧ (bay 0 none).keyCounter = some 3
      ∧ (∀ e ∈ [1, 3], ∃ y ∈ settling.part.pmon.edge? e, y.kind = .sensed ∧ (y.contact 2 true).settled = .walled
          ∧ y.effective = .opened)
      ∧ settling.part.fm.state = .running ∧ ¬ SurveyEndsNext settling.part := by
  refine ⟨⟨?_, rfl, by decide, ?_, fun b h => by simp at h⟩, by decide, by decide, by decide, by decide, by decide, by decide, by decide,
    by decide, by decide, by decide, rfl, ?_⟩
  · unfold AllClean; decide
  · unfold SumHolds; decide
  · unfold SurveyEndsNext; decide

/-- The three outcomes of a contact, at the count that settles and at the one before it. -/
theorem test_witness_ContactDebouncesEdge :
    let x : Edge := ⟨.sensed, .absent, .opened, some ⟨true, 1⟩, .none, .opened⟩
    x.settled = EdgeState.opened ∧ x.settled ≠ .walled ∧ 2 ≤ 1 + 1 ∧ 1 + 1 < 3 := by decide

/-- Bays 1, 4 and 12 of a 4 × 3 floor, and its first and last ids. -/
theorem test_witness_ContactDebouncesEdge_numbering :
    (∀ x ∈ [(1, 1), (1, 4), (3, 4)], 1 ≤ x.1 ∧ x.1 ≤ 3 ∧ 1 ≤ x.2 ∧ x.2 ≤ 4) ∧ 1 < 4 ∧ 1 < 3
      ∧ 1 ≤ edgeCount 4 3 ∧ edgeCount 4 3 ≤ edgeCount 4 3 ∧ edgeBays 4 3 17 = (8, 12) ∧ southEdge 4 3 8 = some 17 := by decide

theorem test_witness_ZoneTakesFlagsAndKeys :
    running.part.zt.zone? 5 = some (zone 5 1 (some 2)) ∧ (zone 5 1 (some 2)).occupancy = .occupied
      ∧ (running.part.mapZt (·.modifyZone 5 fun z => { z with occupancy := .vacant, vacancy := .stopped })).zt.zone? 5 =
          some { zone 5 1 (some 2) with occupancy := .vacant, vacancy := .stopped }
      ∧ running.part.fm.state = .running ∧ (bay 5 none).tag = 5 ∧ (bay 0 none).tag ≠ 5
      ∧ Enabled running.part.slu 9 ∧ running.part.slu.queue.length < 16 ∧ running.part.fm.node? 2 = some (bay 5 none)
      ∧ 5 = ((running.part.zt.pins.find? fun x => x.bay == 2).map Pin.tag).getD (bay 5 none).tag
      ∧ pinned.part.fm.node? 2 = some (bay 5 none)
      ∧ 0 = ((pinned.part.zt.pins.find? fun x => x.bay == 2).map Pin.tag).getD (bay 5 none).tag
      ∧ pinned.part.zt.zone? 0 = some (zone 0 2 (some 1)) := by
  unfold Enabled; decide

/-- A drive of the pair the bay still shows, and one of another pair. -/
theorem test_witness_ValidDriveRecordsPair :
    let chars : List RxChar := [⟨0x3C, false, false⟩, ⟨0xC3, false, false⟩]
    ValidReply 1 2 (some 0x3C) chars ∧ running.part.fm.node? 1 = some (bay 0 none) ∧ (bay 0 none).level = some 800
      ∧ ∀ pair ∈ [(⟨200, 42⟩ : Pair), ⟨199, 42⟩],
        (cell running fun c => { c with bus := .receiving (.drive 1 pair) false chars }).part.cbm.bus
          = .receiving (.drive 1 pair) false chars := by
  refine ⟨⟨?_, rfl, by decide, ?_, fun b h => by simpa using h⟩, by decide, rfl, by decide⟩
  · unfold AllClean; decide
  · unfold SumHolds; decide

/-- A pass-through of bay 3 on the bus. -/
def passing (chars : List RxChar) : State :=
  link (cell running fun c => { c with passSlot := some ⟨3, [0x31]⟩, bus := .receiving (.pass 3 [0x31]) false chars })
    fun u => { u with inFlight := some ⟨0x12, 1⟩ }

theorem test_witness_PassThroughReplyIsBuilt :
    ∀ chars ∈ [[], [⟨7, false, false⟩], List.replicate 16 ⟨7, false, false⟩, [⟨7, false, false⟩, ⟨8, true, false⟩]],
      (passing chars).part.cbm.bus = .receiving (.pass 3 [0x31]) false chars
        ∧ (passing chars).part.slu.inFlight = some ⟨0x12, 1⟩ := by decide

/-- A voided poll of bay 1 whose end makes a grant, the transmitter busy. -/
def voided (g : Cbm → Cbm) : State :=
  link (cell running fun c => g { c with bus := .receiving (.poll 1) true [] }) fun u => { u with tx := .sending .report ⟨0xC0, 0, []⟩ }

/-- The four grants: none, the pass-through, a drive above the cursor and one below it, a poll after four drives. -/
theorem test_witness_ArbiterGrantsInOrder :
    (voided id).part.cbm.bus = .receiving (.poll 1) true [] ∧ (voided id).part.slu.tx ≠ .idle
      ∧ (voided id).part.fm.state = .running
      ∧ ({ (voided id).part with fm := FloorModel.cold }).fm.state = .unconfigured
      ∧ (voided fun c => { c with passSlot := some ⟨3, [0x31]⟩ }).part.cbm.passSlot = some ⟨3, [0x31]⟩
      ∧ (voided fun c => { c with drivePending := [1, 2], driveCursor := 1, driveRun := 3 }).part.cbm.drivePending = [1, 2]
      ∧ [1, 2].Pairwise (· < ·) ∧ 3 < 4 ∧ 1 < 2
      ∧ (voided fun c => { c with drivePending := [1, 2], driveCursor := 2 }).part.cbm.driveCursor = 2 ∧ 1 ≤ 2
      ∧ (voided id).part.fm.node? 1 = some (bay 0 none) ∧ (voided id).part.fm.node? 2 = some (bay 5 none)
      ∧ (bay 5 none).health = .ok ∧ (bay 5 none).level = some 800
      ∧ (voided fun c => { c with drivePending := [1, 2], driveRun := 4, pollCursor := 1 }).part.cbm.driveRun = 4
      ∧ (voided fun c => { c with drivePending := [1, 2], driveRun := 4, pollCursor := 1 }).part.cbm.pollCursor < 2
      ∧ (∀ d, d < 2 → ¬ 1 < d) := by decide

/-- Bay 3, the last ROOMABLE one, was polled: no bay is due above the cursor; the next round has a due bay, or none where every
bay is SILENT. And a transaction that is not voided. -/
theorem test_witness_ArbiterGrantsInOrder_round :
    (voided fun c => { c with pollCursor := 3 }).part.cbm.pollCursor = 3
      ∧ (∀ x ∈ (voided id).part.fm.nodes, x.1 ≤ 3) ∧ ¬ SurveyEndsNext (voided id).part
      ∧ ((voided fun c => { c with pollCursor := 3 }).part.fm.node? 1).map BayRec.health = some .ok
      ∧ (∀ h ∈ ((voided id).part.fm.mapNodes fun _ r => { r with health := .silent }).nodes.map fun x => x.2.health, h = .silent)
      ∧ (0 + 1) % 65536 % 8 ≠ 0 ∧ (polling pollReply).part.cbm.bus = .receiving (.poll 1) false pollReply := by
  unfold SurveyEndsNext; decide

/-- The end of a hold whose next round has a due bay, and of one in whose next round every bay is SILENT and none is due. -/
def holding (health : Health) (round : Nat) : State :=
  let s := cell running fun c => { c with bus := .hold false, roundNumber := round }
  { s with part := s.part.mapFm (·.mapNodes fun _ r => { r with health := health }) }

theorem test_witness_IdleHoldCompletesRound :
    (∀ s ∈ [holding .silent 7, holding .silent 0, holding .ok 0, holding .silent 65535], s.part.cbm.bus = .hold false
      ∧ s.part.cbm.passSlot = none ∧ s.part.fm.state ≠ .unconfigured ∧ s.part.cbm.drivePending = [])
      ∧ ((holding .silent 7).part.fm.node? 1).isSome = true ∧ (7 + 1) % 65536 % 8 = 0 ∧ (65535 + 1) % 65536 % 8 = 0
      ∧ ((0 + 1) % 65536 % 8 ≠ 0 ∧ (holding .silent 0).part.fm.nodes.map (fun x => x.2.health) = [.silent, .silent, .silent])
      ∧ ((holding .ok 0).part.fm.node? 1).map BayRec.health = some .ok := by decide

/-- The end of a hold with a pass-through waiting, with an eligible bay above the drive cursor and below it, after four drives,
and of a voided hold. -/
theorem test_witness_IdleHoldCompletesRound_clients :
    (cell (holding .ok 0) fun c => { c with passSlot := some ⟨3, [0x31]⟩ }).part.cbm.passSlot = some ⟨3, [0x31]⟩
      ∧ (∀ cursor ∈ [1, 2], ∀ run ∈ [3, 4],
        let s := cell (holding .ok 0) fun c => { c with drivePending := [1, 2], driveCursor := cursor, driveRun := run }
        s.part.cbm.bus = .hold false ∧ s.part.cbm.passSlot = none ∧ s.part.cbm.drivePending.Pairwise (· < ·)
          ∧ s.part.fm.state = .running ∧ s.part.fm.node? 1 = some (bay 0 none) ∧ s.part.fm.node? 2 = some (bay 5 none))
      ∧ 3 < 4 ∧ 1 < 2 ∧ ¬ 2 < 2 ∧ (bay 5 none).health = .ok ∧ (bay 5 none).level = some 800
      ∧ (let s := link (cell running fun c => { c with bus := .hold true }) fun u => { u with tx := .sending .report ⟨0xC0, 0, []⟩ }
        s.part.cbm.bus = .hold true ∧ s.part.slu.tx ≠ .idle) := by decide

/-- A survey one round short of its end, edge 1 not settled yet. -/
def surveyEnding : State :=
  let s := cell survey fun c => { c with bus := .hold false }
  { s with part := (s.part.mapFm fun f => { f with surveyRounds := 4 }).mapPmon fun m => { m with
      edges := ⟨.sensed, .present, .unknown, some ⟨true, 1⟩, .none, .unknown⟩ :: m.edges.drop 1, baseline := none } }

theorem test_witness_SurveyEndSettlesEdges :
    surveyEnding.part.cbm.bus = .hold false ∧ surveyEnding.part.fm.state = .survey ∧ surveyEnding.part.fm.surveyOver = false
      ∧ (surveyEnding.part.fm.grid.map Grid.sr).getD 0 + 3 ≤ surveyEnding.part.fm.surveyRounds + 1
      ∧ surveyEnding.part.pmon.edge? 1 = some ⟨.sensed, .present, .unknown, some ⟨true, 1⟩, .none, .unknown⟩
      ∧ surveyEnding.part.pmon.edge? 2 = some (newEdge true) ∧ (newEdge true).kind = .fixed
      ∧ surveyEnding.part.pmon.edge? 3 = some ⟨.sensed, .present, .walled, none, .none, .walled⟩ := by decide

/-- A quiet timer at the end of its span. -/
def quieting (auto : Bool) : State :=
  { running with part := running.part.mapPmon fun m => { m with quiet := .running 41 60, monitor := .unsettled, auto := auto } }

/-- The same survey at the end of a voided transaction with the last ROOMABLE bay. -/
theorem test_witness_SurveyEndSettlesEdges_transaction :
    let s := cell surveyEnding fun c => { c with bus := .receiving (.poll 3) true [], pollCursor := 3 }
    s.part.cbm.bus = .receiving (.poll 3) true [] ∧ s.part.cbm.passSlot = none ∧ (∀ x ∈ s.part.fm.nodes, ¬ s.part.cbm.pollCursor < x.1)
      ∧ s.part.fm.state = .survey ∧ s.part.fm.surveyOver = false := by decide

theorem test_witness_QuietExpirySettlesMonitor :
    ∀ auto ∈ [true, false], (quieting auto).part.pmon.quiet = .running 41 60
      ∧ 60 ≤ ((quieting auto).part.fm.clock - 41).toNat + 1 := by decide

/-- A stale solve, on a floor that asks for another and on one that does not. -/
def stale (requested : Bool) : State :=
  { solving with part := (solving.part.mapPmon fun m => { m with changed := true }).mapRsq fun r => { r with requested := requested } }

theorem test_witness_StaleSolveIsDiscarded :
    (∀ asked ∈ [true, false], (stale asked).part.rsq.seq = .solving
      ∧ (stale asked).part.rsq.snapshot = some ⟨[.opened, .walled, .walled, .walled], false⟩
      ∧ (stale asked).part.pmon.changed = true ∧ (stale asked).part.fm.state ≠ .unconfigured)
      ∧ (stale true).part.rsq.requested = true
      ∧ ¬ ((stale false).part.fm.state = .survey ∨ (stale false).part.rsq.requested = true
        ∨ ((stale false).part.pmon.monitor = .settled ∧ (stale false).part.pmon.auto = true))
      ∧ Reportable (link (stale false) fun u => { u with tx := .sending .report ⟨0xC0, 0, []⟩ }).part.slu 3 := by
  refine ⟨by decide, by decide, by decide, rfl, by decide, by decide⟩

/-- An initial solve of the same floor in its survey. -/
def initialSolve : State :=
  ⟨(floor .survey .solving none).mapRsq fun r => { r with snapshot := some ⟨[.opened, .walled, .walled, .walled], true⟩ }, []⟩

theorem test_witness_AcceptedSolveCommits :
    (solving.part.rsq.seq = .solving ∧ solving.part.rsq.snapshot = some ⟨[.opened, .walled, .walled, .walled], false⟩
      ∧ solving.part.pmon.changed = false ∧ solving.part.zt.pins = [])
      ∧ (initialSolve.part.rsq.seq = .solving ∧ initialSolve.part.rsq.snapshot = some ⟨[.opened, .walled, .walled, .walled], true⟩
        ∧ initialSolve.part.pmon.changed = false ∧ initialSolve.part.zt.pins = [])
      ∧ Reportable (link solving fun u => { u with tx := .sending .report ⟨0xC0, 0, []⟩ }).part.slu 2 := by
  refine ⟨by decide, by decide, rfl, by decide, by decide⟩

/-- The conditions of the second clause, under each pacing, with a SILENT moving bay, and with no moving bay. -/
theorem test_witness_AcceptedSolveCommits_zones :
    (∀ s ∈ [solving, initialSolve], ZonesValid s.part ∧ ZoneLaws s.part)
    ∧ (let plan := (solving.part.solveInput [.opened, .walled, .walled, .walled]).plan
      plan.kept = [(⟨1, [1, 2]⟩, 5)] ∧ plan.admitted = [(⟨3, [3]⟩, 0)] ∧ moversBy plan [6] solving.part = [1, 3]
        ∧ plannedBy plan [6] 1 = 5 ∧ plannedBy plan [6] 3 = 6 ∧ commitReports plan ⟨100, 2, 0, 1, 1, 0, 0, 2⟩ =
          [.solveDone ⟨100, 2, 0, 1, 1, 0, 0, 2⟩])
    ∧ (let plan := ((solving.part.mapFm fun f => { f with spine := [1, 3] }).solveInput (List.replicate 4 .walled)).plan
      plan.floor = [⟨1, [1]⟩, ⟨3, [3]⟩] ∧ plan.kept = [(⟨2, [2]⟩, 5)] ∧ moversBy plan [] solving.part = [])
    ∧ ((solving.part.modifyNode 1 fun r => { r with health := .silent }).fm.node? 1).map BayRec.health = some .silent
    ∧ solving.part.cut.mode = .step := by
  refine ⟨?_, by decide, by decide, by decide, by decide⟩
  intro s h
  rcases List.mem_pair.1 h with rfl | rfl <;>
    exact ⟨zonesValid_of_nodes _ (by decide) (by decide) (by unfold SettingsValid; decide) (by decide) (by decide),
      by unfold ZoneLaws; decide⟩

theorem test_witness_AcceptedSolveCommits_tags :
    TagsGiven [0, 5] 6 [6] 7 ∧ TagsGiven [250, 1, 5] 250 [2] 3 := by
  refine ⟨⟨⟨0, by decide, rfl, by decide, fun j h => absurd h (Nat.not_lt_zero j)⟩, rfl⟩,
    ⟨⟨2, by decide, rfl, by decide, fun j h => ?_⟩, rfl⟩⟩
  have : j = 0 ∨ j = 1 := by omega
  rcases this with rfl | rfl <;> decide

/-- The same completion on a floor whose bay 3 is a spine bay, and on one whose component of two bays is over RL. -/
theorem test_witness_AcceptedSolveZonesEachComponent :
    (solving.part.rsq.seq = .solving ∧ solving.part.rsq.snapshot = some ⟨[.opened, .walled, .walled, .walled], false⟩
      ∧ solving.part.pmon.changed = false)
      ∧ (solving.part.solveInput [.opened, .walled, .walled, .walled]).components = [⟨1, [1, 2]⟩, ⟨3, [3]⟩]
      ∧ 3 ∈ (solving.part.mapFm fun f => { f with spine := [3] }).fm.spine
      ∧ (solving.part.mapFm fun f => { f with rl := 1 }).fm.rl < [1, 2].length := by decide

theorem test_witness_ComponentsAreConnectedBays :
    let i := running.part.solveInput [.opened, .walled, .opened, .walled]
    (i.tagOf.map Prod.fst).Pairwise (· < ·) ∧ (∀ b ∈ i.tagOf.map Prod.fst, 1 ≤ b ∧ b ≤ i.n)
      ∧ i.components = [⟨1, [1, 2, 3]⟩] := by decide

theorem test_witness_EachZoneContinuesOnce :
    let i := running.part.solveInput [.opened, .walled, .walled, .walled]
    (i.tagOf.map Prod.fst).Pairwise (· < ·) ∧ i.plan.kept = [(⟨1, [1, 2]⟩, 5)] := by decide

theorem test_witness_StepExpiryMovesLowestBay :
    (cuttingTwo.part.cut.stepTimer = .running 99 2 ∧ 2 ≤ (cuttingTwo.part.fm.clock - 99).toNat + 1
      ∧ cuttingTwo.part.cut.list = 1 :: [3] ∧ 1 ∉ [3] ∧ cuttingTwo.part.fm.node? 1 = some (bay 0 (some 5))
      ∧ (bay 0 (some 5)).nextTag = some 5)
      ∧ (cutting.part.mapCut fun c => { c with stepTimer := .running 99 2 }).cut.list = 3 :: []
      ∧ cutting.part.fm.node? 3 = some (bay 0 (some 5)) ∧ cutting.part.zt.zone? 0 = some (zone 0 2 (some 1))
      ∧ cutting.part.zt.zone? 5 = some (zone 5 1 (some 2)) ∧ cutting.part.cut.run = some ⟨100, 1, 0⟩
      ∧ cutting.part.fm.state = .running ∧ cutting.part.afa.supply = some 60 := by decide

/-- Bay 2, the last member of the RETIRING zone 5 that a keypad is pinned to, listed alone and before bay 3, moves to the BORN
zone 9. -/
def leaving (bays : List Nat) : State :=
  { cutting with part := ((cutting.part.modifyNode 2 fun r => { r with nextTag := some 9 }).mapZt fun t => { t with
      slots := [some (zone 0 2 (some 1)), some { zone 5 1 (some 2) with life := .retiring, outgoing := 1 },
        some { zone 9 0 none with life := .born, incoming := 1 }] ++ List.replicate 61 none
      pins := [⟨1, 5⟩] }).mapCut fun c => { c with list := bays, stepTimer := .running 99 2 } }

theorem test_witness_StepExpiryMovesLowestBay_freed :
    ∀ bays ∈ [[2], [2, 3]], (leaving bays).part.cut.list = 2 :: bays.drop 1 ∧ (leaving bays).part.fm.node? 2 = some (bay 5 (some 9))
      ∧ freedByLeaving { zone 5 1 (some 2) with life := .retiring, outgoing := 1 } = true
      ∧ (leaving bays).part.zt.zone? 5 = some { zone 5 1 (some 2) with life := .retiring, outgoing := 1 }
      ∧ (leaving bays).part.zt.zone? 9 = some { zone 9 0 none with life := .born, incoming := 1 }
      ∧ pinsDropped (leaving bays).part 5 = [.pinDropped 1 5]
      ∧ (leaving bays).part.stepExpiry.zt.zone? 5 = none ∧ (leaving bays).part.stepExpiry.zt.pins = []
      ∧ ((leaving bays).part.stepExpiry.zt.zone? 9).map Zone.life = some .live := by decide

/-- A deadline whose limit the clock has reached, under both modes. -/
def atDeadline (mode : Pacing) : State :=
  { cutting with part := cutting.part.mapCut fun c => { c with mode := mode, deadline := .running 61, run := some ⟨40, 1, 0⟩ } }

theorem test_witness_DeadlineExpiryByPacing :
    ∀ mode ∈ [Pacing.step, .vacant], (atDeadline mode).part.cut.deadline = .running 61
      ∧ (atDeadline mode).part.rsq.seq = .cutting ∧ (atDeadline mode).part.cut.run = some ⟨40, 1, 0⟩
      ∧ 61 ≤ ((atDeadline mode).part.fm.clock - 40).toNat + 1 ∧ (atDeadline mode).part.cut.mode = mode
      ∧ 3 ∈ (atDeadline mode).part.cut.list ∧ (atDeadline mode).part.fm.node? 3 = some (bay 0 (some 5))
      ∧ 1 ∉ (atDeadline mode).part.cut.list ∧ (atDeadline mode).part.fm.node? 1 = some (bay 0 none)
      ∧ (atDeadline mode).part.fm.state = .running ∧ (atDeadline mode).part.afa.supply = some 60
      ∧ (atDeadline mode).part.zt.pins = [] ∧ (atDeadline mode).part.cut.list.Nodup := by decide

/-- Under VACANT pacing, with the transmitter busy, the report comes first. -/
theorem test_deadline_expiry_reports :
    let s := link (atDeadline .vacant) fun u => { u with tx := .sending .report ⟨0xC0, 0, []⟩ }
    ∃ t, exec .deadlineExpiry s = .next t ∧ t.part.slu.queue = [⟨.cutoverDone 1 1 .deadline 60, 100⟩] := ⟨_, rfl, by decide⟩

theorem test_witness_VacancyExpiryEmptiesZone :
    (withVacancy (.running 71 30)).part.zt.zone? 5 = some { zone 5 1 (some 2) with vacancy := .running 71 30 }
      ∧ 30 ≤ ((withVacancy (.running 71 30)).part.fm.clock - 71).toNat + 1
      ∧ (withVacancy (.running 71 30)).part.fm.state = .running := by decide

theorem test_witness_FadeTickMovesLevels :
    survey.part.fm.state ≠ .running ∧ running.part.fm.state = .running ∧ running.part.fm.node? 1 = some (bay 0 none) := by
  decide

/-- An allocation interval at its end; zone 9 has no member. -/
def allocating : State :=
  { running with part := { running.part with
      afa := { running.part.afa with timer := .running 71 30 }
      zt := { running.part.zt with
        slots := running.part.zt.slots.take 2 ++ some { zone 9 0 none with life := .born } :: List.replicate 61 none } } }

theorem test_witness_AllocationExpiryAllocates :
    allocating.part.afa.timer = .running 71 30 ∧ 30 ≤ (allocating.part.fm.clock - 71).toNat + 1
      ∧ allocating.part.afa.supply = some 60 ∧ (allocating.part.zt.zone? 9).map Zone.members = some 0
      ∧ allocating.part.fm.node? 2 = some (bay 5 none) ∧ allocating.part.zt.tags.Nodup
      ∧ airRows allocating.part = [⟨0, 2, 0, 20⟩, ⟨5, 1, 0, 10⟩] := by decide

/-- The same, the expiry run: the grants of R155 and R158. -/
theorem test_allocation_expiry_grants :
    ∃ t, exec .allocationIntervalExpiry allocating = .next t ∧ (t.part.zt.zone? 0).map Zone.grant = some 20
      ∧ (t.part.fm.nodes.map fun x => x.2.q) = [10, 10, 10] ∧ t.part.afa.timer = .running 100 30 := ⟨_, rfl, by decide⟩

/-- A budget that covers the excess exactly, and one that is 1 L/s short of it. -/
theorem test_witness_AllocationSpendsBudget :
    let rows : List AirRow := [⟨0, 3, 0, 30⟩, ⟨5, 2, 10, 30⟩, ⟨7, 1, 5, 15⟩]
    (∀ r ∈ rows, r.demand = r.n * 10 + r.excess) ∧ (rows.map AirRow.excess).sum ≤ 15 ∧ 14 < (rows.map AirRow.excess).sum
      ∧ grantsOf 10 14 rows = [(0, 30), (5, 30), (7, 14)] ∧ grantsOf 10 15 rows = [(0, 30), (5, 30), (7, 15)] ∧ 0 < 1
      ∧ 0 < 12 ∧ 11 < 12 := by decide

/-- The worked allocation of section 8.10 in closed form, and the usable temperatures of a SILENT member, one without inputs and
one with its fault flag set. -/
theorem test_grants_and_usable_temperatures :
    grantsOf 10 500 [⟨0, 70, 0, 700⟩, ⟨3, 12, 240, 360⟩, ⟨5, 10, 300, 400⟩, ⟨7, 8, 120, 200⟩]
        = [(0, 700), (3, 302), (5, 328), (7, 170)]
      ∧ usableTemps running.part 0 = [90, 90]
      ∧ usableTemps (running.part.modifyNode 1 fun r => { r with health := .silent }) 0 = [90]
      ∧ usableTemps (running.part.modifyNode 1 fun r => { r with inputs := none }) 0 = [90]
      ∧ usableTemps (running.part.modifyNode 1 fun r => { r with inputs := some ⟨false, 90, true⟩ }) 0 = [90]
      ∧ usableTemps (running.part.modifyNode 1 fun r => { r with inputs := some ⟨false, 255, false⟩ }) 0 = [90] := by decide

/-- A running floor whose link waits for a pass-through meets the link's invariant, and a step of it answers next. -/
theorem test_witness_StepKeepsLinkInv :
    LinkInv (passing []).part ∧ ∃ t, step { passing [] with pending := [.receptionEnd] } = .next t := by
  refine ⟨⟨by decide, by decide, fun h => absurd h (by decide), fun f h => ?_, fun _ => by decide, fun _ => by decide⟩, _, rfl⟩
  have idle : (passing []).part.slu.tx = .idle := rfl
  rw [idle] at h
  exact absurd h nofun

theorem test_witness_StepKeepsParametersAndEdges :
    ParameterRanges running.part ∧ EdgesValid running.part ∧ (∀ s ∈ [running, survey, solving], NetChangeLaws s.part)
      ∧ PendingLaws (cell running fun c => { c with drivePending := [1, 3] }).part
      ∧ ∃ t, step { running with pending := [.setPacing 1 [1, 0, 0, 0]] } = .next t :=
  ⟨by unfold ParameterRanges; decide, by unfold EdgesValid; decide, by unfold NetChangeLaws; decide, by unfold PendingLaws; decide,
    _, rfl⟩

theorem test_witness_StepKeepsZonesValid :
    (∀ s ∈ [running, survey, cutting, solving], ZonesValid s.part ∧ NetChangeLaws s.part ∧ ZoneLaws s.part ∧ SupplyLaws s.part)
      ∧ ∃ t, step { running with pending := [.setZone 1 []] } = .next t := by
  refine ⟨?_, _, rfl⟩
  intro s h
  simp only [List.mem_cons, List.not_mem_nil, or_false] at h
  rcases h with rfl | rfl | rfl | rfl <;>
    exact ⟨zonesValid_of_nodes _ (by decide) (by decide) (by unfold SettingsValid; decide) (by decide) (by decide),
      by unfold NetChangeLaws; decide, by unfold ZoneLaws; decide, by unfold SupplyLaws; decide⟩

end Sys2Proof.Tests
end

/-!
The refusals of SETUP FLOOR (R7, R8): what each of its three checks answers, what the handling does when one refuses, and the
obligation that these make up.
-/
namespace Sys2Proof.Machine

/-! ### The checks that precede a request's effect (R177) -/

@[simp] theorem checked_some (p : Part) (r : Reply) (go : Part × Reply) : checked p (some r) go = (p, r) := rfl

@[simp] theorem checked_none (p : Part) (go : Part × Reply) : checked p none go = go := rfl

theorem lengthIs_of_eq {n : Nat} {body : List Byte} (h : body.length = n) : lengthIs n body = none := if_pos h

theorem lengthIs_of_ne {n : Nat} {body : List Byte} (h : body.length ≠ n) : lengthIs n body = some (.plain .badForm 0) := if_neg h

/-! ### The checks of SETUP FLOOR -/

/-- R7: the state table, said in one condition. -/
theorem Part.setupBusy_eq (p : Part) :
    p.setupBusy = if p.fm.state = .unconfigured ∨ p.rsq.seq = .idle then none else some (.plain .busy 0) := by
  unfold setupBusy
  cases p.fm.state <;> cases p.rsq.seq <;> rfl

theorem mem_bayNumbers {n b : Nat} : b ∈ bayNumbers n ↔ 1 ≤ b ∧ b ≤ n := by
  simp only [bayNumbers, List.mem_range'_1]
  omega

/-- R8: no bit beyond bay `n` is set, and some bay of the floor is left ROOMABLE. -/
def BitmapFits (n : Nat) (bitmap : List Byte) : Prop :=
  (∀ b, n < b → b ≤ 192 → coreBit bitmap b = false) ∧ ∃ b, 1 ≤ b ∧ b ≤ n ∧ coreBit bitmap b = false

theorem any_bit_beyond_iff (n : Nat) (bitmap : List Byte) :
    ((bayNumbers 192).any fun b => decide (n < b) && coreBit bitmap b) = true
      ↔ ∃ b, n < b ∧ b ≤ 192 ∧ coreBit bitmap b = true := by
  simp only [List.any_eq_true, mem_bayNumbers, Bool.and_eq_true, decide_eq_true_eq]
  constructor
  · rintro ⟨b, ⟨-, top⟩, beyond, set⟩
    exact ⟨b, beyond, top, set⟩
  · rintro ⟨b, beyond, top, set⟩
    exact ⟨b, ⟨by omega, top⟩, beyond, set⟩

theorem all_bays_core_iff (n : Nat) (bitmap : List Byte) :
    (bayNumbers n).all (coreBit bitmap) = true ↔ ∀ b, 1 ≤ b → b ≤ n → coreBit bitmap b = true := by
  simp only [List.all_eq_true, mem_bayNumbers, and_imp]

/-- The two tests of the bitmap fail exactly where it does not fit the floor. -/
theorem bitmap_tests_iff (n : Nat) (bitmap : List Byte) :
    (((bayNumbers 192).any fun b => decide (n < b) && coreBit bitmap b) = true ∨ (bayNumbers n).all (coreBit bitmap) = true)
      ↔ ¬ BitmapFits n bitmap := by
  rw [any_bit_beyond_iff, all_bays_core_iff, BitmapFits, not_and_or]
  refine or_congr ?_ ?_
  · simp only [not_forall, exists_prop, Bool.not_eq_false]
  · simp only [not_exists, not_and, Bool.not_eq_false]

/-- R8: the fields in their order, each failing where the ones before it hold. -/
theorem setupFieldFault_first (g : Grid) (bitmap : List Byte) :
    let colsOk := 2 ≤ g.cols ∧ g.cols ≤ 16
    let rowsOk := 2 ≤ g.rows ∧ g.rows ≤ 12
    let mapOk := BitmapFits (g.cols * g.rows) bitmap
    let vOk := 5 ≤ g.v ∧ g.v ≤ 40
    let qmaxOk := g.v + 10 ≤ g.qmax ∧ g.qmax ≤ 250
    let srOk := 1 ≤ g.sr ∧ g.sr ≤ 8
    let fault := setupFieldFault g bitmap
    (¬ colsOk → fault = some 1) ∧ (colsOk → ¬ rowsOk → fault = some 2) ∧ (colsOk → rowsOk → ¬ mapOk → fault = some 3)
      ∧ (colsOk → rowsOk → mapOk → ¬ vOk → fault = some 4) ∧ (colsOk → rowsOk → mapOk → vOk → ¬ qmaxOk → fault = some 5)
      ∧ (colsOk → rowsOk → mapOk → vOk → qmaxOk → ¬ srOk → fault = some 6) := by
  intro colsOk rowsOk mapOk vOk qmaxOk srOk fault
  have outside (lo hi x : Nat) : (x < lo ∨ hi < x) ↔ ¬ (lo ≤ x ∧ x ≤ hi) := by omega
  unfold fault setupFieldFault
  simp only [← ite_or, outside, ite_not]
  have tests := bitmap_tests_iff (g.cols * g.rows) bitmap
  refine ⟨?_, ?_, ?_, ?_, ?_, ?_⟩
  · intro cols
    rw [if_neg cols]
  · intro cols rows
    rw [if_pos cols, if_neg rows]
  · intro cols rows map
    rw [if_pos cols, if_pos rows, if_pos (tests.2 map)]
  · intro cols rows map v
    rw [if_pos cols, if_pos rows, if_neg (tests.not_left.2 map), if_neg v]
  · intro cols rows map v qmax
    rw [if_pos cols, if_pos rows, if_neg (tests.not_left.2 map), if_pos v, if_neg qmax]
  · intro cols rows map v qmax sr
    rw [if_pos cols, if_pos rows, if_neg (tests.not_left.2 map), if_pos v, if_pos qmax, if_neg sr]

/-! ### The handling, where a check refuses -/

theorem handleSetupFloor_badForm {body : List Byte} (p : Part) (len : body.length ≠ 29) :
    handleSetupFloor body p = (p, .plain .badForm 0) := by
  rw [handleSetupFloor, lengthIs_of_ne len, checked_some]

theorem handleSetupFloor_busy {body : List Byte} (p : Part) (len : body.length = 29)
    (busy : ¬ (p.fm.state = .unconfigured ∨ p.rsq.seq = .idle)) : handleSetupFloor body p = (p, .plain .busy 0) := by
  rw [handleSetupFloor, lengthIs_of_eq len, checked_none, p.setupBusy_eq, if_neg busy, checked_some]

theorem handleSetupFloor_outOfRange {body : List Byte} {field : Nat} (p : Part) (len : body.length = 29)
    (considered : p.fm.state = .unconfigured ∨ p.rsq.seq = .idle)
    (fails : setupFieldFault (setupGrid body) (setupBitmap body) = some field) :
    handleSetupFloor body p = (p, .plain .outOfRange field) := by
  simp only [handleSetupFloor, lengthIs_of_eq len, p.setupBusy_eq, if_pos considered, fails, Option.map_some, checked_none,
    checked_some]

/-- Settles O15: each check refuses with the part unchanged, so the request's reply is all that happens. -/
theorem setupFloorRefusals : Obligations.SetupFloorRefusals := by
  unfold Obligations.SetupFloorRefusals
  intro number body s free dflt cols rows core v qmax sr outOfRange colsOk rowsOk mapOk vOk qmaxOk srOk
  refine ⟨fun len => ?badForm, fun len busy => ?busy, fun len considered => ?fields⟩
  case badForm =>
    exact takeRequest_answersOnly 0x02 number _ s .badForm 0 [] free fun p _ => handleSetupFloor_badForm p len
  case busy =>
    refine takeRequest_answersOnly 0x02 number _ s .busy 0 [] free fun p same => handleSetupFloor_busy p len ?_
    subst same
    exact busy
  case fields =>
    have refused {field : Nat} (fails : setupFieldFault (setupGrid body) (setupBitmap body) = some field) :
        outOfRange field := by
      refine takeRequest_answersOnly 0x02 number _ s .outOfRange field [] free fun p same =>
        handleSetupFloor_outOfRange p len ?_ fails
      subst same
      exact considered
    obtain ⟨first1, first2, first3, first4, first5, first6⟩ := setupFieldFault_first (setupGrid body) (setupBitmap body)
    exact ⟨fun h => refused (first1 h), fun c h => refused (first2 c h), fun c r h => refused (first3 c r h),
      fun c r m h => refused (first4 c r m h), fun c r m v h => refused (first5 c r m v h),
      fun c r m v q h => refused (first6 c r m v q h)⟩

end Sys2Proof.Machine

/-!
The end of a DRIVE whose reply is valid (R33): what R21's judging accepts, which blocks the arbiter's next grant leaves, what a
valid drive reply does to the part, and the obligation that these make up.
-/
namespace Sys2Proof.Machine

/-! ### Replies that R21 accepts -/

theorem any_not_clean_iff (chars : List RxChar) : (chars.any fun c => !c.clean) = true ↔ ¬ AllClean chars := by
  simp [AllClean, RxChar.clean, imp_iff_not_or]

theorem checkHolds_iff (bay : Nat) (chars : List RxChar) : checkHolds bay chars = true ↔ SumHolds bay chars := by
  simp only [checkHolds, SumHolds, byteSum, List.map_map, beq_iff_eq]
  rfl

/-- R21: a reply is judged to have no failure exactly where it is valid. -/
theorem judgeReply_eq_none_iff (bay want : Nat) (first : Option Byte) (chars : List RxChar) :
    judgeReply bay want first chars = none ↔ ValidReply bay want first chars := by
  classical
  have firstFails : (first.any fun b => (chars.head?.map RxChar.data) != some b) = true
      ↔ ¬ ∀ b, first = some b → chars.head?.map RxChar.data = some b := by
    cases first <;> simp
  simp only [judgeReply, ValidReply, List.isEmpty_iff, Bool.or_eq_true, any_not_clean_iff, decide_eq_true_eq,
    Bool.not_eq_true', ← Bool.not_eq_true, checkHolds_iff, firstFails]
  split
  case isTrue empty =>
    simp only [reduceCtorEq, false_iff, empty, List.length_nil]
    rintro ⟨-, length, positive, -⟩
    omega
  case isFalse nonempty =>
    have received : 0 < chars.length := List.length_pos_iff.2 nonempty
    split
    case isTrue framing =>
      simp only [reduceCtorEq, false_iff]
      rintro ⟨clean, length, -⟩
      exact framing.elim (· clean) (by omega)
    case isFalse framed =>
      rw [not_or, not_not] at framed
      obtain ⟨clean, notLong⟩ := framed
      split
      case isTrue short =>
        simp only [reduceCtorEq, false_iff]
        rintro ⟨-, length, -⟩
        omega
      case isFalse notShort =>
        have length : chars.length = want := by omega
        split
        case isTrue fails =>
          simp only [reduceCtorEq, false_iff]
          rintro ⟨-, -, -, sum, head⟩
          exact fails.elim (· sum) (· head)
        case isFalse passes =>
          rw [not_or, not_not, not_not] at passes
          simp only [true_iff]
          exact ⟨clean, length, by omega, passes⟩

/-! ### What the arbiter's grant leaves alone -/

theorem FloorModel.node?_congr {f g : FloorModel} (same : f.bays = g.bays) (b : Nat) : f.node? b = g.node? b := by
  simp only [node?, bay?, same]

/-- R11, R12: a counted round, the survey's last one included, touches no bay record. -/
@[simp] theorem Part.countRound_bays (p : Part) : p.countRound.fm.bays = p.fm.bays := by
  unfold countRound
  split
  · dsimp only
    split <;> rfl
  · rfl

@[simp] theorem Part.completeRound_bays (p : Part) : p.completeRound.fm.bays = p.fm.bays := by
  simp [completeRound]

@[simp] theorem Part.completeRound_drivePending (p : Part) : p.completeRound.cbm.drivePending = p.cbm.drivePending := by
  simp [completeRound]

@[simp] theorem Part.grantPoll_drivePending (b : Nat) (p : Part) :
    (p.grantPoll b).cbm.drivePending = p.cbm.drivePending := rfl

@[simp] theorem Part.grantDrive_drivePending (b : Nat) (d : Pair) (p : Part) :
    (p.grantDrive b d).cbm.drivePending = p.cbm.drivePending := rfl

@[simp] theorem Part.pollOrHold_drivePending (p : Part) : p.pollOrHold.cbm.drivePending = p.cbm.drivePending := by
  unfold pollOrHold
  split <;> rfl

@[simp] theorem Part.grantPolling_bays (p : Part) : p.grantPolling.fm.bays = p.fm.bays := by
  unfold grantPolling
  dsimp only
  split <;> simp

@[simp] theorem Part.grantPolling_drivePending (p : Part) : p.grantPolling.cbm.drivePending = p.cbm.drivePending := by
  unfold grantPolling
  dsimp only
  split <;> simp

/-- R36: a grant puts one transaction on the bus or leaves it free, or grants a drive, or is the poll sequencer's turn. -/
theorem Part.grantWith_cases (poll : Part → Part) (p : Part) :
    (∃ bus, p.grantWith poll = p.mapCbm fun c => { c with bus := bus }) ∨ (∃ b pair, p.grantWith poll = p.grantDrive b pair)
      ∨ p.grantWith poll = poll p := by
  unfold grantWith
  split
  case h_1 => exact .inl ⟨_, rfl⟩
  all_goals
    split
    case h_1 => exact .inl ⟨_, rfl⟩
    case h_2 =>
      split
      case h_1 =>
        split
        case isTrue => exact .inr (.inl ⟨_, _, rfl⟩)
        case isFalse => exact .inr (.inr rfl)
      case h_2 => exact .inr (.inr rfl)

@[simp] theorem Part.arbitrate_bays (p : Part) : p.arbitrate.fm.bays = p.fm.bays := by
  obtain ⟨bus, grant⟩ | ⟨b, pair, grant⟩ | grant := p.grantWith_cases Part.grantPolling <;> rw [arbitrate, grant] <;> simp

@[simp] theorem Part.arbitrate_drivePending (p : Part) : p.arbitrate.cbm.drivePending = p.cbm.drivePending := by
  obtain ⟨bus, grant⟩ | ⟨b, pair, grant⟩ | grant := p.grantWith_cases Part.grantPolling <;> rw [arbitrate, grant] <;> simp

/-! ### A valid drive reply -/

@[simp] theorem Part.joinPending_drivePending (b : Nat) (p : Part) :
    (p.joinPending b).cbm.drivePending = insertSet b p.cbm.drivePending := rfl

@[simp] theorem BayRec.shows_withFailures (qmax failures : Nat) (sent : Option Pair) (r : BayRec) :
    ({ r with failures := failures, lastSent := sent } : BayRec).shows qmax = r.shows qmax := rfl

/-- R33: a valid drive reply records the pair, and the bay leaves the set or, with another pair to show, is in it. -/
theorem Part.validDrive_eq {b : Nat} {sent now : Pair} {r : BayRec} {p : Part} (node : p.fm.node? b = some r)
    (shows : r.shows p.fm.qmax = some now) :
    p.validDrive b sent =
      { p with
        fm := p.fm.modifyNode b fun r => { r with failures := 0, lastSent := some sent }
        cbm := { p.cbm with drivePending :=
          if now = sent then removeSet b p.cbm.drivePending else insertSet b (removeSet b p.cbm.drivePending) } } := by
  have qmax : (p.fm.modifyNode b fun r => { r with failures := 0, lastSent := some sent }).qmax = p.fm.qmax := rfl
  simp only [validDrive, mapCbm_fm, modifyNode_fm, FloorModel.node?_modifyNode, node, qmax, if_pos, Option.map_some,
    Option.bind_some, BayRec.shows_withFailures, shows]
  split <;> rfl

/-- R20, R21, R36: the end of a reception that is not voided: the outcome, then the arbiter's grant and the transmitter's choice. -/
theorem exec_receptionEnd_eq {x : Transaction} {chars : List RxChar} {s : State}
    (receiving : s.part.cbm.bus = .receiving x false chars) :
    exec .receptionEnd s = .next { s with part :=
      ((s.part.mapCbm fun c => { c with bus := .quiet }).applyOutcome x chars).arbitrate.choose } := by
  simp only [exec, execReceptionEnd, Part.endReception, receiving]
  rfl

/-- Settles O39: the reply is judged valid, `validDrive_eq` says what it does, and the grant that follows touches neither the bay
records nor the drive-pending set. -/
theorem validDriveRecordsPair : Obligations.ValidDriveRecordsPair := by
  unfold Obligations.ValidDriveRecordsPair
  intro b level pair chars r s receiving valid node hasLevel qmax shown
  have shows : r.shows s.part.fm.qmax = some shown := by
    rw [BayRec.shows, hasLevel]
    rfl
  have judged : judgeReply b 2 (some 0x3C) chars = none := (judgeReply_eq_none_iff ..).2 valid
  have ends := exec_receptionEnd_eq receiving
  simp only [Part.applyOutcome, judged] at ends
  rw [Part.validDrive_eq (p := s.part.mapCbm _) node shows] at ends
  refine ⟨_, ends, rfl, ?record, ?otherRecords, ?pending, ?otherPending, by simp, by simp, by simp⟩
  case record => simp [FloorModel.node?_congr (Part.arbitrate_bays _), node]
  case otherRecords =>
    intro other ne
    simp [FloorModel.node?_congr (Part.arbitrate_bays _), ne]
  case pending =>
    by_cases same : shown = pair <;> simp [same]
  case otherPending =>
    intro other ne
    by_cases same : shown = pair <;> simp [same, ne]

end Sys2Proof.Machine

/-!
The rooms of a floor (R68): what one pass of the labels does, why as many passes as there are bays carry every label as far as OPEN
edges lead, what the labels then say, and the obligation that these make up.
-/
namespace Sys2Proof.Machine

open Relation (EqvGen)

/-! ### Labels passed along joins -/

/-- The bays that a path of joins, each crossed either way, leads to from a bay. -/
abbrev ConnectedBy (joins : List (Nat × Nat)) : Nat → Nat → Prop := EqvGen fun a b => (a, b) ∈ joins

/-- Of two lists of labels, that the second comes from the first along joins: no label has risen, and each is one that the first list
gives a connected bay. -/
structure LabelsMoved (joins : List (Nat × Nat)) (before after : List Nat) : Prop where
  le : ∀ v, after.getD v 0 ≤ before.getD v 0
  source : ∀ v, ∃ u, ConnectedBy joins v u ∧ after.getD v 0 = before.getD u 0

theorem LabelsMoved.refl (joins : List (Nat × Nat)) (labels : List Nat) : LabelsMoved joins labels labels :=
  ⟨fun _ => le_rfl, fun v => ⟨v, .refl v, rfl⟩⟩

theorem LabelsMoved.trans {joins : List (Nat × Nat)} {l₁ l₂ l₃ : List Nat} (first : LabelsMoved joins l₁ l₂)
    (second : LabelsMoved joins l₂ l₃) : LabelsMoved joins l₁ l₃ where
  le v := (second.le v).trans (first.le v)
  source v := by
    obtain ⟨u, vu, eq₂⟩ := second.source v
    obtain ⟨w, uw, eq₁⟩ := first.source u
    exact ⟨w, .trans _ _ _ vu uw, eq₂.trans eq₁⟩

/-- A label written at place `w`; where the list has no such place, 0 is read there, and writing 0 is no change. -/
theorem getD_set_zero {labels : List Nat} {w m : Nat} (fits : labels.length ≤ w → m = 0) (v : Nat) :
    (labels.set w m).getD v 0 = if v = w then m else labels.getD v 0 := by
  rw [List.getD_eq_getElem?_getD, List.getElem?_set]
  by_cases same : w = v
  · subst same
    by_cases inList : w < labels.length
    · simp [inList]
    · simp [inList, fits (Nat.le_of_not_lt inList)]
  · simp [same, Ne.symm same]

/-- Both ends of a join hold the lower label after it. An end outside the list reads 0, and then the lower label is 0. -/
theorem joinLabels_getD (labels : List Nat) (a b v : Nat) :
    (joinLabels labels (a, b)).getD v 0 =
      if v = a ∨ v = b then min (labels.getD a 0) (labels.getD b 0) else labels.getD v 0 := by
  have fitsA : labels.length ≤ a → min (labels.getD a 0) (labels.getD b 0) = 0 := fun out => by
    rw [List.getD_eq_default _ _ out, Nat.zero_min]
  have fitsB : labels.length ≤ b → min (labels.getD a 0) (labels.getD b 0) = 0 := fun out => by
    rw [List.getD_eq_default labels _ out, Nat.min_zero]
  rw [joinLabels, getD_set_zero (by simpa using fitsB), getD_set_zero fitsA, ← ite_or]
  exact if_congr Or.comm rfl rfl

theorem joinLabels_moved {joins : List (Nat × Nat)} {a b : Nat} (labels : List Nat) (mem : (a, b) ∈ joins) :
    LabelsMoved joins labels (joinLabels labels (a, b)) where
  le v := by
    rw [joinLabels_getD]
    split_ifs with ends
    · rcases ends with rfl | rfl <;> omega
    · exact le_rfl
  source v := by
    have ab : ConnectedBy joins a b := .rel _ _ mem
    rw [joinLabels_getD]
    split_ifs with ends
    · have toEnds : ConnectedBy joins v a ∧ ConnectedBy joins v b := by
        rcases ends with rfl | rfl
        · exact ⟨.refl _, ab⟩
        · exact ⟨.symm _ _ ab, .refl _⟩
      rcases min_choice (labels.getD a 0) (labels.getD b 0) with lower | lower
      · exact ⟨a, toEnds.1, lower⟩
      · exact ⟨b, toEnds.2, lower⟩
    · exact ⟨v, .refl v, rfl⟩

/-- A pass over some of the joins, in any order. -/
theorem labelPass_moved {joins pass : List (Nat × Nat)} (labels : List Nat) (sub : pass ⊆ joins) :
    LabelsMoved joins labels (labelPass pass labels) := by
  induction pass generalizing labels with
  | nil => exact .refl joins labels
  | cons ab rest ih =>
    obtain ⟨mem, rest_sub⟩ := List.cons_subset.1 sub
    exact (joinLabels_moved labels mem).trans (ih _ rest_sub)

theorem labelPasses_moved (joins : List (Nat × Nat)) (k : Nat) (labels : List Nat) :
    LabelsMoved joins labels (labelPasses joins k labels) := by
  induction k generalizing labels with
  | zero => exact .refl joins labels
  | succ k ih => exact (labelPass_moved labels (List.Subset.refl joins)).trans (ih _)

/-! ### How far a pass carries a label -/

/-- One pass carries the label of each end of a join to its other end. -/
theorem labelPass_le_across {joins : List (Nat × Nat)} {a b : Nat} (labels : List Nat) (mem : (a, b) ∈ joins) :
    (labelPass joins labels).getD a 0 ≤ labels.getD b 0 ∧ (labelPass joins labels).getD b 0 ≤ labels.getD a 0 := by
  induction joins generalizing labels with
  | nil => simp at mem
  | cons ab rest ih =>
    rcases List.mem_cons.1 mem with rfl | inRest
    · have later : LabelsMoved rest (joinLabels labels (a, b)) (labelPass ((a, b) :: rest) labels) :=
        labelPass_moved _ (List.Subset.refl rest)
      have atA := later.le a
      have atB := later.le b
      simp only [joinLabels_getD, true_or, or_true, if_true] at atA atB
      omega
    · have joined : LabelsMoved (ab :: rest) labels (joinLabels labels ab) := joinLabels_moved labels List.mem_cons_self
      obtain ⟨atA, atB⟩ := ih (joinLabels labels ab) inRest
      exact ⟨atA.trans (joined.le b), atB.trans (joined.le a)⟩

/-- The bays as a graph, a join an edge between its two ends. -/
def joinGraph (joins : List (Nat × Nat)) : SimpleGraph Nat := SimpleGraph.fromRel fun a b => (a, b) ∈ joins

theorem joinGraph_adj {joins : List (Nat × Nat)} {a b : Nat} :
    (joinGraph joins).Adj a b ↔ a ≠ b ∧ ((a, b) ∈ joins ∨ (b, a) ∈ joins) :=
  SimpleGraph.fromRel_adj ..

theorem joinGraph_reachable {joins : List (Nat × Nat)} {a b : Nat} (connected : ConnectedBy joins a b) :
    (joinGraph joins).Reachable a b := by
  induction connected with
  | rel a b mem =>
    by_cases same : a = b
    · exact same ▸ .refl a
    · exact (joinGraph_adj.2 ⟨same, .inl mem⟩).reachable
  | refl a => exact .refl a
  | symm a b _ ih => exact ih.symm
  | trans a b c _ _ ab bc => exact ab.trans bc

/-- Each pass carries a label one step of a walk. -/
theorem labelPasses_le_walk {joins : List (Nat × Nat)} {a b : Nat} (walk : (joinGraph joins).Walk a b) (labels : List Nat) :
    (labelPasses joins walk.length labels).getD b 0 ≤ labels.getD a 0 := by
  induction walk generalizing labels with
  | nil => exact le_rfl
  | @cons a next b adj rest ih =>
    have step : (labelPass joins labels).getD next 0 ≤ labels.getD a 0 := by
      rcases (joinGraph_adj.1 adj).2 with mem | mem
      · exact (labelPass_le_across labels mem).2
      · exact (labelPass_le_across labels mem).1
    exact (ih (labelPass joins labels)).trans step

theorem labelPasses_add (joins : List (Nat × Nat)) (j k : Nat) (labels : List Nat) :
    labelPasses joins (j + k) labels = labelPasses joins k (labelPasses joins j labels) := by
  induction j generalizing labels with
  | zero => rw [Nat.zero_add, labelPasses]
  | succ j ih => rw [Nat.succ_add, labelPasses, labelPasses, ih]

/-- A walk that starts at a bay of the floor stays on the floor. -/
theorem joinGraph_support_le {joins : List (Nat × Nat)} {n a b : Nat} (ends : ∀ ab ∈ joins, ab.1 ≤ n ∧ ab.2 ≤ n)
    (walk : (joinGraph joins).Walk a b) (start : a ≤ n) : ∀ v ∈ walk.support, v ≤ n := by
  induction walk with
  | nil => simpa using start
  | @cons a next b adj rest ih =>
    have onFloor : next ≤ n := by
      rcases (joinGraph_adj.1 adj).2 with mem | mem
      · exact (ends _ mem).2
      · exact (ends _ mem).1
    simpa [start] using ih onFloor

/-- A path visits no bay twice, so on a floor of `n` bays (and the unused place 0) it takes at most `n` steps. -/
theorem joinGraph_path_length_le {joins : List (Nat × Nat)} {n a b : Nat} (ends : ∀ ab ∈ joins, ab.1 ≤ n ∧ ab.2 ≤ n)
    (walk : (joinGraph joins).Walk a b) (path : walk.IsPath) (start : a ≤ n) : walk.length ≤ n := by
  have onFloor : walk.support ⊆ List.range (n + 1) := fun v mem =>
    List.mem_range.2 (Nat.lt_succ_of_le (joinGraph_support_le ends walk start v mem))
  have count := (path.support_nodup.subperm onFloor).length_le
  rw [walk.length_support, List.length_range] at count
  omega

/-- `n` passes carry a label as far as the joins lead. -/
theorem labelPasses_le_connected {joins : List (Nat × Nat)} {n a b : Nat} (ends : ∀ ab ∈ joins, ab.1 ≤ n ∧ ab.2 ≤ n)
    (connected : ConnectedBy joins a b) (start : a ≤ n) (labels : List Nat) :
    (labelPasses joins n labels).getD b 0 ≤ labels.getD a 0 := by
  obtain ⟨walk, path⟩ := (joinGraph_reachable connected).exists_isPath
  obtain ⟨more, rfl⟩ := Nat.exists_eq_add_of_le (joinGraph_path_length_le ends walk path start)
  calc (labelPasses joins (walk.length + more) labels).getD b 0
      = (labelPasses joins more (labelPasses joins walk.length labels)).getD b 0 := by rw [labelPasses_add]
    _ ≤ (labelPasses joins walk.length labels).getD b 0 := (labelPasses_moved joins more _).le b
    _ ≤ labels.getD a 0 := labelPasses_le_walk walk labels

/-! ### The labels of a solve -/

/-- The ROOMABLE bays. -/
abbrev SolveInput.bays (i : SolveInput) : List Nat := i.tagOf.map Prod.fst

/-- R68: a path across OPEN edges from one bay to another. -/
abbrev SolveInput.Connected (i : SolveInput) : Nat → Nat → Prop := ConnectedBy i.joins

/-- A bay's label when the passes are over. -/
def SolveInput.label (i : SolveInput) (b : Nat) : Nat := i.labels.getD b 0

theorem SolveInput.tag_isSome (i : SolveInput) (b : Nat) : (i.tag b).isSome = true ↔ b ∈ i.bays := by
  simp [tag, lookupTag]

theorem SolveInput.mem_joins (i : SolveInput) (a b : Nat) :
    (a, b) ∈ i.joins ↔ a ∈ i.bays ∧ b ∈ i.bays
      ∧ ∃ e, i.snapshot[e]? = some .opened ∧ edgeBays i.cols i.rows (e + 1) = (a, b) := by
  rw [joins, List.mem_filter, mem_pickFrom, Bool.and_eq_true, tag_isSome, tag_isSome, and_comm, and_assoc]
  simp [Nat.add_comm 1]

theorem SolveInput.connected_mem {i : SolveInput} {a b : Nat} (connected : i.Connected a b) : a ∈ i.bays ↔ b ∈ i.bays := by
  induction connected with
  | rel a b mem =>
    obtain ⟨roomableA, roomableB, -⟩ := (i.mem_joins a b).1 mem
    exact iff_of_true roomableA roomableB
  | refl a => exact .rfl
  | symm a b _ ih => exact ih.symm
  | trans a b c _ _ ab bc => exact ab.trans bc

section
variable {i : SolveInput} (inRange : ∀ b ∈ i.bays, 1 ≤ b ∧ b ≤ i.n)
include inRange

theorem SolveInput.initialLabel_eq {b : Nat} (mem : b ∈ i.bays) : (List.range (i.n + 1)).getD b 0 = b := by
  have := (inRange b mem).2
  simp [List.getD_eq_getElem?_getD, List.getElem?_range (Nat.lt_succ_of_le this)]

theorem SolveInput.connected_label {b : Nat} (mem : b ∈ i.bays) : i.Connected b (i.label b) := by
  obtain ⟨u, connected, eq⟩ := (labelPasses_moved i.joins i.n (List.range (i.n + 1))).source b
  rw [initialLabel_eq inRange ((connected_mem connected).1 mem)] at eq
  have label : i.label b = u := eq
  exact label ▸ connected

theorem SolveInput.label_le_of_connected {a b : Nat} (mem : a ∈ i.bays) (connected : i.Connected a b) : i.label b ≤ a := by
  have ends : ∀ ab ∈ i.joins, ab.1 ≤ i.n ∧ ab.2 ≤ i.n := by
    intro ab join
    obtain ⟨roomableA, roomableB, -⟩ := (i.mem_joins ab.1 ab.2).1 join
    exact ⟨(inRange _ roomableA).2, (inRange _ roomableB).2⟩
  have reached := labelPasses_le_connected ends connected (inRange a mem).2 (List.range (i.n + 1))
  rwa [initialLabel_eq inRange mem] at reached

theorem SolveInput.label_mem {b : Nat} (mem : b ∈ i.bays) : i.label b ∈ i.bays :=
  (connected_mem (connected_label inRange mem)).1 mem

theorem SolveInput.label_le_label {a b : Nat} (mem : a ∈ i.bays) (connected : i.Connected a b) : i.label b ≤ i.label a :=
  label_le_of_connected inRange (label_mem inRange mem)
    (.trans _ _ _ (.symm _ _ (connected_label inRange mem)) connected)

/-- Two ROOMABLE bays have one label exactly where a path across OPEN edges joins them. -/
theorem SolveInput.label_eq_iff {a b : Nat} (memA : a ∈ i.bays) (memB : b ∈ i.bays) :
    i.label a = i.label b ↔ i.Connected a b := by
  constructor
  · intro same
    have fromA := connected_label inRange memA
    have fromB := connected_label inRange memB
    exact .trans _ _ _ (same ▸ fromA) (.symm _ _ fromB)
  · intro connected
    exact le_antisymm (label_le_label inRange memB (.symm _ _ connected)) (label_le_label inRange memA connected)

theorem SolveInput.label_label {b : Nat} (mem : b ∈ i.bays) : i.label (i.label b) = i.label b :=
  ((label_eq_iff inRange mem (label_mem inRange mem)).2 (connected_label inRange mem)).symm

end

/-! ### The components of a solve -/

/-- The component that a key names: the ROOMABLE bays whose label it is. -/
def SolveInput.componentOf (i : SolveInput) (k : Nat) : Component := ⟨k, i.bays.filter fun b => i.label b == k⟩

theorem SolveInput.components_eq (i : SolveInput) :
    i.components = (i.bays.filter fun b => i.label b == b).map i.componentOf := rfl

theorem SolveInput.components_keys (i : SolveInput) : i.components.map Component.key = i.bays.filter fun b => i.label b == b := by
  rw [components_eq, List.map_map]
  exact List.map_id _

theorem SolveInput.mem_components (i : SolveInput) (c : Component) :
    c ∈ i.components ↔ ∃ k, k ∈ i.bays ∧ i.label k = k ∧ i.componentOf k = c := by
  simp only [components_eq, List.mem_map, List.mem_filter, beq_iff_eq, and_assoc]

theorem SolveInput.mem_componentOf (i : SolveInput) (k b : Nat) :
    b ∈ (i.componentOf k).bays ↔ b ∈ i.bays ∧ i.label b = k := by
  simp only [componentOf, List.mem_filter, beq_iff_eq]

/-- Settles O48: after as many passes as there are bays a bay's label is the lowest bay that OPEN edges lead to, so bays of one label
are a class of connected bays and the label is its lowest. -/
theorem componentsAreConnectedBays : Obligations.ComponentsAreConnectedBays := by
  unfold Obligations.ComponentsAreConnectedBays
  intro i ascending inRange bays joined
  have joined_eq : joined = fun a b => (a, b) ∈ i.joins := by
    funext a b
    exact propext (i.mem_joins a b).symm
  refine ⟨?covered, ?classes, ?lowest, ?ascendingKeys, fun _ _ => rfl⟩
  case covered =>
    intro b mem
    exact ⟨i.componentOf (i.label b),
      (i.mem_components _).2 ⟨_, SolveInput.label_mem inRange mem, SolveInput.label_label inRange mem, rfl⟩,
      (i.mem_componentOf _ b).2 ⟨mem, rfl⟩⟩
  case classes =>
    intro c isComponent a inC b
    obtain ⟨k, -, -, rfl⟩ := (i.mem_components c).1 isComponent
    obtain ⟨memA, rfl⟩ := (i.mem_componentOf k a).1 inC
    rw [i.mem_componentOf, joined_eq]
    refine and_congr_right fun memB => ?_
    rw [eq_comm, SolveInput.label_eq_iff inRange memA memB]
  case lowest =>
    intro c isComponent
    obtain ⟨k, memK, own, rfl⟩ := (i.mem_components c).1 isComponent
    refine ⟨(i.mem_componentOf k k).2 ⟨memK, own⟩, fun b inC => ?_⟩
    obtain ⟨memB, rfl⟩ := (i.mem_componentOf k b).1 inC
    exact SolveInput.label_le_of_connected inRange memB (.refl b)
  case ascendingKeys =>
    rw [i.components_keys]
    exact ascending.filter _

end Sys2Proof.Machine

/-!
PIN KEYPAD and UNPIN KEYPAD (R104 to R106, R193): what the writing of a pin does to the table, what each handling answers check by
check, what a request that writes the pin table alone leaves, and the obligation that these make up.
-/
namespace Sys2Proof.Machine

/-- R177: a kind that needs a floor, where there is none. -/
theorem Part.configured_of_unconfigured {p : Part} (noFloor : p.fm.state = .unconfigured) :
    p.configured = some (.plain .notReady 0) := if_pos noFloor

theorem Part.configured_of_floor {p : Part} (floor : p.fm.state ≠ .unconfigured) : p.configured = none := if_neg floor

/-- The first byte of a body (R177). -/
theorem fieldAt_cons_zero (b : Byte) (body : List Byte) : fieldAt (b :: body) 0 = b.toNat := rfl

/-- The second byte of a body. -/
theorem fieldAt_cons_one (a b : Byte) (body : List Byte) : fieldAt (a :: b :: body) 1 = b.toNat := rfl

/-! ### The writing and the removal of a pin (R104 to R106) -/

/-- Either no entry of the table names the bay, or one does. -/
theorem not_free_iff_held {pins : List Pin} {bay : Nat} : (¬ ∀ x ∈ pins, x.bay ≠ bay) ↔ ∃ x ∈ pins, x.bay = bay := by
  simp only [not_forall, not_not, exists_prop]

theorem insertPin_eq_orderedInsert (x : Pin) (pins : List Pin) :
    insertPin x pins = pins.orderedInsert (fun x y => x.bay < y.bay) x := by
  induction pins with
  | nil => rfl
  | cons y ys ih => simp only [insertPin, List.orderedInsert, ih]

/-- A pin whose bay has no entry keeps the bay order. -/
theorem insertPin_ascending {x : Pin} {pins : List Pin} (free : ∀ y ∈ pins, y.bay ≠ x.bay)
    (ascending : pins.Pairwise fun x y => x.bay < y.bay) : (insertPin x pins).Pairwise fun x y => x.bay < y.bay := by
  induction pins with
  | nil => exact List.pairwise_singleton ..
  | cons y ys ih =>
    obtain ⟨freeHead, freeTail⟩ := List.forall_mem_cons.1 free
    obtain ⟨headLeast, tailAscending⟩ := List.pairwise_cons.1 ascending
    rw [insertPin]
    split_ifs with before
    · exact List.pairwise_cons.2 ⟨List.forall_mem_cons.2 ⟨before, fun z mem => before.trans (headLeast z mem)⟩, ascending⟩
    · have after : y.bay < x.bay := by omega
      refine List.pairwise_cons.2 ⟨fun z mem => ?_, ih freeTail tailAscending⟩
      rw [insertPin_eq_orderedInsert, List.mem_orderedInsert] at mem
      rcases mem with rfl | inTail
      · exact after
      · exact headLeast z inTail

/-- A bay's entry replaced in its place. -/
def replacePin (x : Pin) (pins : List Pin) : List Pin := pins.map fun y => if y.bay = x.bay then x else y

theorem mem_replacePin {x : Pin} {pins : List Pin} (held : ∃ y ∈ pins, y.bay = x.bay) (z : Pin) :
    z ∈ replacePin x pins ↔ z = x ∨ (z ∈ pins ∧ z.bay ≠ x.bay) := by
  rw [replacePin, List.mem_map]
  constructor
  · rintro ⟨y, mem, rfl⟩
    by_cases same : y.bay = x.bay
    · exact .inl (if_pos same)
    · exact .inr ((if_neg same).symm ▸ ⟨mem, same⟩)
  · rintro (rfl | ⟨mem, other⟩)
    · obtain ⟨y, mem, same⟩ := held
      exact ⟨y, mem, if_pos same⟩
    · exact ⟨z, mem, if_neg other⟩

/-- Each place of the table keeps its bay, so the order stands. -/
theorem replacePin_ascending {x : Pin} {pins : List Pin} (ascending : pins.Pairwise fun x y => x.bay < y.bay) :
    (replacePin x pins).Pairwise fun x y => x.bay < y.bay := by
  have bayKept (y : Pin) : (if y.bay = x.bay then x else y).bay = y.bay := by
    split_ifs with same
    · exact same.symm
    · rfl
  simpa only [replacePin, List.pairwise_map, bayKept] using ascending

/-- R105: the pin table that a taken PIN KEYPAD leaves. -/
def writePin (x : Pin) (pins : List Pin) : List Pin :=
  if ∃ y ∈ pins, y.bay = x.bay then replacePin x pins else insertPin x pins

theorem writePin_of_held {x : Pin} {pins : List Pin} (held : ∃ y ∈ pins, y.bay = x.bay) :
    writePin x pins = replacePin x pins :=
  if_pos held

theorem writePin_of_free {x : Pin} {pins : List Pin} (free : ∀ y ∈ pins, y.bay ≠ x.bay) :
    writePin x pins = insertPin x pins :=
  if_neg fun held => not_free_iff_held.2 held free

theorem length_writePin_of_held {x : Pin} {pins : List Pin} (held : ∃ y ∈ pins, y.bay = x.bay) :
    (writePin x pins).length = pins.length := by
  rw [writePin_of_held held, replacePin, List.length_map]

theorem length_writePin_of_free {x : Pin} {pins : List Pin} (free : ∀ y ∈ pins, y.bay ≠ x.bay) :
    (writePin x pins).length = pins.length + 1 := by
  rw [writePin_of_free free, insertPin_eq_orderedInsert, List.orderedInsert_length]

theorem mem_writePin (x : Pin) (pins : List Pin) (z : Pin) :
    z ∈ writePin x pins ↔ z = x ∨ (z ∈ pins ∧ z.bay ≠ x.bay) := by
  by_cases held : ∃ y ∈ pins, y.bay = x.bay
  · rw [writePin_of_held held, mem_replacePin held]
  · have free : ∀ y ∈ pins, y.bay ≠ x.bay := by rwa [← not_free_iff_held, not_not] at held
    rw [writePin_of_free free, insertPin_eq_orderedInsert, List.mem_orderedInsert]
    exact or_congr_right (iff_self_and.2 (free z))

theorem writePin_ascending (x : Pin) {pins : List Pin} (ascending : pins.Pairwise fun x y => x.bay < y.bay) :
    (writePin x pins).Pairwise fun x y => x.bay < y.bay := by
  by_cases held : ∃ y ∈ pins, y.bay = x.bay
  · rw [writePin_of_held held]
    exact replacePin_ascending ascending
  · have free : ∀ y ∈ pins, y.bay ≠ x.bay := by rwa [← not_free_iff_held, not_not] at held
    rw [writePin_of_free free]
    exact insertPin_ascending free ascending

/-- R106: the pin table without a bay's entry. -/
def removePin (bay : Nat) (pins : List Pin) : List Pin := pins.filter fun x => decide (x.bay ≠ bay)

theorem filter_bne_eq_removePin (bay : Nat) (pins : List Pin) : (pins.filter fun x => x.bay != bay) = removePin bay pins :=
  List.filter_congr fun x _ => by rw [bne, decide_not]; rfl

/-! ### The entry of a bay -/

theorem find_pin_eq_none_iff {pins : List Pin} {bay : Nat} :
    pins.find? (fun x => x.bay == bay) = none ↔ ∀ x ∈ pins, x.bay ≠ bay := by
  simp only [List.find?_eq_none, beq_iff_eq, ne_eq]

theorem bay_held_of_find_pin {pins : List Pin} {bay : Nat} {old : Pin} (found : pins.find? (fun x => x.bay == bay) = some old) :
    ∃ x ∈ pins, x.bay = bay := by
  have same := List.find?_some found
  exact ⟨old, List.mem_of_find?_eq_some found, beq_iff_eq.1 same⟩

/-- The reply of either request carries the tag that the bay's entry holds, or 255. -/
theorem byteOr255_pinOf {t : Zt} {bay : Nat} {old : Option Pin} (entry : t.pins.find? (fun x => x.bay == bay) = old) :
    byteOr255 (t.pinOf bay) = ((old.map Pin.tag).map byteOf).getD 255 := by
  rw [Zt.pinOf, entry]
  cases old <;> rfl

/-! ### The two handlings (R105, R106, R193) -/

theorem handlePinKeypad_notReady (b tag : Byte) {p : Part} (noFloor : p.fm.state = .unconfigured) :
    handlePinKeypad [b, tag] p = (p, .plain .notReady 0) := by
  rw [handlePinKeypad, lengthIs_of_eq (by rfl), checked_none, Part.configured_of_unconfigured noFloor, checked_some]

theorem handleUnpinKeypad_notReady (b : Byte) {p : Part} (noFloor : p.fm.state = .unconfigured) :
    handleUnpinKeypad [b] p = (p, .plain .notReady 0) := by
  rw [handleUnpinKeypad, lengthIs_of_eq (by rfl), checked_none, Part.configured_of_unconfigured noFloor, checked_some]

section
variable {b tag : Byte} {p : Part} (floor : p.fm.state ≠ .unconfigured)
include floor

/-- R105: the checks of PIN KEYPAD in their order, and what it does past them. -/
theorem handlePinKeypad_of_floor :
    handlePinKeypad [b, tag] p =
      if p.fm.node? b.toNat = none then (p, .plain .outOfRange 1)
      else if p.zt.zone? tag.toNat = none then (p, .plain .noSuch 2)
      else if (∀ x ∈ p.zt.pins, x.bay ≠ b.toNat) ∧ 16 ≤ p.zt.pins.length then (p, .plain .full 0)
      else ({ p with zt := { p.zt with pins := writePin ⟨b.toNat, tag.toNat⟩ p.zt.pins } },
        .done [byteOf (writePin ⟨b.toNat, tag.toNat⟩ p.zt.pins).length, byteOr255 (p.zt.pinOf b.toNat)]) := by
  rw [handlePinKeypad, lengthIs_of_eq (by rfl), Part.configured_of_floor floor, fieldAt_cons_zero, fieldAt_cons_one]
  cases node : p.fm.node? b.toNat with
  | none => simp [node]
  | some _ =>
    cases zone : p.zt.zone? tag.toNat with
    | none => simp [node, zone]
    | some _ =>
      cases entry : p.zt.pins.find? (fun x => x.bay == b.toNat) with
      | none =>
        have free : ∀ y ∈ p.zt.pins, y.bay ≠ b.toNat := find_pin_eq_none_iff.1 entry
        rw [length_writePin_of_free free, writePin_of_free free]
        simp only [and_iff_right free]
        simp [node, zone, Zt.pinOf, entry, Part.mapZt, byteOr255]
      | some old =>
        have held : ∃ y ∈ p.zt.pins, y.bay = b.toNat := bay_held_of_find_pin entry
        have notFull : ¬ ((∀ y ∈ p.zt.pins, y.bay ≠ b.toNat) ∧ 16 ≤ p.zt.pins.length) :=
          not_and_of_not_left _ (not_free_iff_held.2 held)
        rw [length_writePin_of_held held, writePin_of_held held, if_neg notFull]
        simp [node, zone, Zt.pinOf, entry, Part.mapZt, byteOr255, replacePin]

theorem handlePinKeypad_outOfRange (notRoomable : p.fm.node? b.toNat = none) :
    handlePinKeypad [b, tag] p = (p, .plain .outOfRange 1) := by
  rw [handlePinKeypad_of_floor floor, if_pos notRoomable]

theorem handlePinKeypad_noSuch (roomable : (p.fm.node? b.toNat).isSome = true) (noZone : p.zt.zone? tag.toNat = none) :
    handlePinKeypad [b, tag] p = (p, .plain .noSuch 2) := by
  rw [handlePinKeypad_of_floor floor, if_neg (Option.isSome_iff_ne_none.1 roomable), if_pos noZone]

section
variable (roomable : (p.fm.node? b.toNat).isSome = true) (zone : (p.zt.zone? tag.toNat).isSome = true)
include roomable zone

theorem handlePinKeypad_full (free : ∀ x ∈ p.zt.pins, x.bay ≠ b.toNat) (full : 16 ≤ p.zt.pins.length) :
    handlePinKeypad [b, tag] p = (p, .plain .full 0) := by
  rw [handlePinKeypad_of_floor floor, if_neg (Option.isSome_iff_ne_none.1 roomable),
    if_neg (Option.isSome_iff_ne_none.1 zone), if_pos ⟨free, full⟩]

/-- The pin is written where the bay has an entry to replace or the table has room. -/
theorem handlePinKeypad_done (room : (∀ x ∈ p.zt.pins, x.bay ≠ b.toNat) → p.zt.pins.length < 16) :
    handlePinKeypad [b, tag] p =
      ({ p with zt := { p.zt with pins := writePin ⟨b.toNat, tag.toNat⟩ p.zt.pins } },
        .done [byteOf (writePin ⟨b.toNat, tag.toNat⟩ p.zt.pins).length, byteOr255 (p.zt.pinOf b.toNat)]) := by
  rw [handlePinKeypad_of_floor floor, if_neg (Option.isSome_iff_ne_none.1 roomable),
    if_neg (Option.isSome_iff_ne_none.1 zone), if_neg fun ⟨free, full⟩ => (room free).not_ge full]

end

/-- R106: the checks of UNPIN KEYPAD in their order, and what it does past them. -/
theorem handleUnpinKeypad_of_floor :
    handleUnpinKeypad [b] p =
      if p.fm.node? b.toNat = none then (p, .plain .outOfRange 1)
      else if ∀ x ∈ p.zt.pins, x.bay ≠ b.toNat then (p, .plain .noSuch 1)
      else ({ p with zt := { p.zt with pins := removePin b.toNat p.zt.pins } },
        .done [byteOr255 (p.zt.pinOf b.toNat), byteOf (removePin b.toNat p.zt.pins).length]) := by
  rw [handleUnpinKeypad, lengthIs_of_eq (by rfl), Part.configured_of_floor floor, fieldAt_cons_zero]
  cases node : p.fm.node? b.toNat with
  | none => simp [node]
  | some _ =>
    cases entry : p.zt.pins.find? (fun x => x.bay == b.toNat) with
    | none =>
      rw [if_pos (find_pin_eq_none_iff.1 entry)]
      simp [node, Zt.pinOf, entry]
    | some old =>
      rw [if_neg (not_free_iff_held.2 (bay_held_of_find_pin entry))]
      simp [node, Zt.pinOf, entry, Part.mapZt, byteOr255, filter_bne_eq_removePin]

theorem handleUnpinKeypad_outOfRange (notRoomable : p.fm.node? b.toNat = none) :
    handleUnpinKeypad [b] p = (p, .plain .outOfRange 1) := by
  rw [handleUnpinKeypad_of_floor floor, if_pos notRoomable]

theorem handleUnpinKeypad_noSuch (roomable : (p.fm.node? b.toNat).isSome = true) (free : ∀ x ∈ p.zt.pins, x.bay ≠ b.toNat) :
    handleUnpinKeypad [b] p = (p, .plain .noSuch 1) := by
  rw [handleUnpinKeypad_of_floor floor, if_neg (Option.isSome_iff_ne_none.1 roomable), if_pos free]

theorem handleUnpinKeypad_done (roomable : (p.fm.node? b.toNat).isSome = true) (held : ∃ x ∈ p.zt.pins, x.bay = b.toNat) :
    handleUnpinKeypad [b] p =
      ({ p with zt := { p.zt with pins := removePin b.toNat p.zt.pins } },
        .done [byteOr255 (p.zt.pinOf b.toNat), byteOf (removePin b.toNat p.zt.pins).length]) := by
  rw [handleUnpinKeypad_of_floor floor, if_neg (Option.isSome_iff_ne_none.1 roomable),
    if_neg (not_free_iff_held.2 held)]

end

/-! ### A request that writes the pin table alone -/

theorem takeRequest_writesPins (kind number : Byte) (handle : Part → Part × Reply) (s : State) (pins : List Pin)
    (fields : List Byte) (free : s.part.slu.inFlight = none)
    (handled : ∀ p : Part,
      p = { s.part with slu := { s.part.slu with assembler := .hunting, inFlight := some ⟨kind, number⟩ } } →
        handle p = ({ p with zt := { p.zt with pins := pins } }, .done fields)) :
    ∃ t, Host.Outcome.next (φ := Fault) (ρ := Refusal)
          { s with part := s.part.takeRequest kind number (replying handle) } = .next t
      ∧ Answers kind number .done 0 fields t ∧ LinkKeeps s.part.slu t.part.slu
      ∧ t = { s with part := { s.part with slu := t.part.slu, zt := { s.part.zt with pins := t.part.zt.pins } } }
      ∧ t.part.zt.pins = pins := by
  obtain ⟨t, runs, answers, keeps, eq⟩ := takeRequest_answers kind number handle s _ .done 0 fields free (handled _ rfl) rfl
  have written : t.part.zt.pins = pins := by rw [eq]
  exact ⟨t, runs, answers, keeps, by rw [written]; exact eq, written⟩

/-- Settles O32: each check refuses with the part unchanged; past the checks the pin table alone is written, by `writePin` or by the
removal of the bay's entry. -/
theorem keypadPinsAreWrittenAndRemoved : Obligations.KeypadPinsAreWrittenAndRemoved := by
  unfold Obligations.KeypadPinsAreWrittenAndRemoved
  refine ⟨fun number b tag s idle noFloor => ⟨?pinNotReady, ?unpinNotReady⟩,
    fun number b tag s idle floor => ⟨fun notRoomable => ?pinOutOfRange, fun roomable noZone => ?pinNoSuch,
      fun roomable zone free full => ?pinFull, fun roomable zone old entry room => ?pinDone⟩,
    fun number b s idle floor => ⟨fun notRoomable => ?unpinOutOfRange, fun roomable free => ?unpinNoSuch,
      fun roomable old entry => ?unpinDone⟩⟩
  case pinNotReady =>
    exact takeRequest_answersOnly 0x10 number _ s .notReady 0 [] idle fun p same =>
      handlePinKeypad_notReady b tag (same ▸ noFloor)
  case unpinNotReady =>
    exact takeRequest_answersOnly 0x11 number _ s .notReady 0 [] idle fun p same =>
      handleUnpinKeypad_notReady b (same ▸ noFloor)
  case pinOutOfRange =>
    exact takeRequest_answersOnly 0x10 number _ s .outOfRange 1 [] idle fun p same =>
      handlePinKeypad_outOfRange (same ▸ floor) (same ▸ notRoomable)
  case pinNoSuch =>
    exact takeRequest_answersOnly 0x10 number _ s .noSuch 2 [] idle fun p same =>
      handlePinKeypad_noSuch (same ▸ floor) (same ▸ roomable) (same ▸ noZone)
  case pinFull =>
    exact takeRequest_answersOnly 0x10 number _ s .full 0 [] idle fun p same =>
      handlePinKeypad_full (same ▸ floor) (same ▸ roomable) (same ▸ zone) (same ▸ free) (same ▸ full)
  case pinDone =>
    obtain ⟨t, runs, answers, keeps, frame, pins⟩ := takeRequest_writesPins 0x10 number (handlePinKeypad [b, tag]) s
      (writePin ⟨b.toNat, tag.toNat⟩ s.part.zt.pins) _ idle fun p same => by
        subst same
        exact handlePinKeypad_done floor roomable zone fun free => room (entry ▸ find_pin_eq_none_iff.2 free)
    rw [byteOr255_pinOf entry, ← pins] at answers
    refine ⟨t, runs, answers, keeps, frame, ?length, ?members, ?order⟩
    case length =>
      rw [pins]
      cases old with
      | none => exact length_writePin_of_free (find_pin_eq_none_iff.1 entry)
      | some old => exact length_writePin_of_held (bay_held_of_find_pin entry)
    case members =>
      rw [pins]
      exact mem_writePin ⟨b.toNat, tag.toNat⟩ s.part.zt.pins
    case order =>
      rw [pins]
      exact writePin_ascending ⟨b.toNat, tag.toNat⟩
  case unpinOutOfRange =>
    exact takeRequest_answersOnly 0x11 number _ s .outOfRange 1 [] idle fun p same =>
      handleUnpinKeypad_outOfRange (same ▸ floor) (same ▸ notRoomable)
  case unpinNoSuch =>
    exact takeRequest_answersOnly 0x11 number _ s .noSuch 1 [] idle fun p same =>
      handleUnpinKeypad_noSuch (same ▸ floor) (same ▸ roomable) (same ▸ free)
  case unpinDone =>
    obtain ⟨t, runs, answers, keeps, frame, pins⟩ := takeRequest_writesPins 0x11 number (handleUnpinKeypad [b]) s
      (removePin b.toNat s.part.zt.pins) _ idle fun p same => by
        subst same
        exact handleUnpinKeypad_done floor roomable (bay_held_of_find_pin entry)
    rw [byteOr255_pinOf entry, ← pins] at answers
    exact ⟨t, runs, answers, keeps, frame, pins⟩

end Sys2Proof.Machine

/-!
SET AUTO (R54, R181): what a notice leaves of the two values that the request writes, when the request is a notice that starts a
solve, what its handling answers, and the obligation that these make up.
-/
namespace Sys2Proof.Machine

/-! ### Notices (R62) -/

/-- R62, R64: a notice that starts a solve, of a floor that is RUNNING. -/
theorem Part.notice_of_due {p : Part} (running : p.fm.state = .running) (settled : p.pmon.monitor = .settled)
    (auto : p.pmon.auto = true) (idle : p.rsq.seq = .idle) :
    p.notice = { p with
      pmon := { p.pmon with changed := false }
      rsq := { p.rsq with
        seq := .solving, requested := false, snapshot := some ⟨p.pmon.edges.map Edge.effective, false⟩ } } := by
  rw [notice, if_pos ⟨running, settled, auto, idle⟩, startSolve, running]
  rfl

theorem Part.notice_of_not_due {p : Part}
    (notDue : ¬ (p.fm.state = .running ∧ p.pmon.monitor = .settled ∧ p.pmon.auto = true ∧ p.rsq.seq = .idle)) : p.notice = p :=
  if_neg notDue

@[simp] theorem Part.notice_auto (p : Part) : p.notice.pmon.auto = p.pmon.auto := by
  unfold Part.notice
  split <;> rfl

@[simp] theorem Part.notice_qt (p : Part) : p.notice.pmon.qt = p.pmon.qt := by
  unfold Part.notice
  split <;> rfl

/-! ### The two values written (R54) -/

/-- R54: the auto flag goes from off to on where every other condition of a notice's solve holds. -/
def Part.AutoOnStartsSolve (auto : Bool) (p : Part) : Prop :=
  p.pmon.auto = false ∧ auto = true ∧ p.fm.state = .running ∧ p.pmon.monitor = .settled ∧ p.rsq.seq = .idle

section
variable (auto : Bool) (qt : Nat) (p : Part)

@[simp] theorem Part.setAuto_slu : (p.setAuto auto qt).slu = p.slu := by
  unfold Part.setAuto
  dsimp only
  split <;> simp

@[simp] theorem Part.setAuto_auto : (p.setAuto auto qt).pmon.auto = auto := by
  unfold Part.setAuto
  dsimp only
  split <;> simp

@[simp] theorem Part.setAuto_qt : (p.setAuto auto qt).pmon.qt = clamp 5 600 qt := by
  unfold Part.setAuto
  dsimp only
  split <;> simp

end

theorem Part.setAuto_of_starting {auto : Bool} {p : Part} (qt : Nat) (starts : p.AutoOnStartsSolve auto) :
    p.setAuto auto qt = { p with
      pmon := { p.pmon with auto := true, qt := clamp 5 600 qt, changed := false }
      rsq := { p.rsq with
        seq := .solving, requested := false, snapshot := some ⟨p.pmon.edges.map Edge.effective, false⟩ } } := by
  obtain ⟨wasOff, rfl, running, settled, idle⟩ := starts
  rw [setAuto, if_pos ⟨wasOff, rfl⟩]
  exact Part.notice_of_due running settled rfl idle

/-- Where the request is no notice, and where its notice starts no solve, the two values alone are written. -/
theorem Part.setAuto_of_not_starting {auto : Bool} {p : Part} (qt : Nat) (notStarts : ¬ p.AutoOnStartsSolve auto) :
    p.setAuto auto qt = { p with pmon := { p.pmon with auto := auto, qt := clamp 5 600 qt } } := by
  rw [setAuto]
  split_ifs with switched
  · obtain ⟨wasOff, on⟩ := switched
    exact Part.notice_of_not_due fun ⟨running, settled, _, idle⟩ => notStarts ⟨wasOff, on, running, settled, idle⟩
  · rfl

/-! ### The handling (R181) -/

/-- The enables that requests carry: 0 and 1. -/
theorem toNat_le_one_iff (b : Byte) : b.toNat ≤ 1 ↔ b = 0 ∨ b = 1 := by
  simp only [BitVec.toNat_eq, BitVec.ofNat_eq_ofNat, BitVec.toNat_ofNat]
  omega

theorem handleSetAuto_outOfRange {flag : Byte} (hi lo : Byte) (p : Part) (not0 : flag ≠ 0) (not1 : flag ≠ 1) :
    handleSetAuto [flag, hi, lo] p = (p, .plain .outOfRange 1) := by
  have beyond : ¬ flag.toNat ≤ 1 := fun le => ((toNat_le_one_iff flag).1 le).elim not0 not1
  rw [handleSetAuto, lengthIs_of_eq (by rfl), checked_none, fieldAt_cons_zero, if_neg beyond, checked_some]

theorem handleSetAuto_done {flag : Byte} (hi lo : Byte) (p : Part) (enable : flag = 0 ∨ flag = 1) :
    handleSetAuto [flag, hi, lo] p =
      (p.setAuto (decide (flag = 1)) (word16 hi lo), .done (flag :: bytes16 (clamp 5 600 (word16 hi lo)))) := by
  have asFlag : (flag.toNat == 1) = decide (flag = 1) ∧ byteOfFlag (decide (flag = 1)) = flag := by
    rcases enable with rfl | rfl <;> decide
  obtain ⟨on, coded⟩ := asFlag
  rw [handleSetAuto, lengthIs_of_eq (by rfl), checked_none, fieldAt_cons_zero, if_pos ((toNat_le_one_iff flag).2 enable),
    checked_none, on]
  dsimp only
  rw [Part.setAuto_auto, Part.setAuto_qt, coded]
  rfl

/-- Settles O19: a flag that is no enable is refused with the part unchanged; otherwise the two values are written, and the notice
that they may give is the one way in which anything else changes. -/
theorem setAutoWritesAutoAndQuietTime : Obligations.SetAutoWritesAutoAndQuietTime := by
  unfold Obligations.SetAutoWritesAutoAndQuietTime
  intro number flag hi lo s free
  refine ⟨fun not0 not1 => ?outOfRange, fun enable => ?done⟩
  case outOfRange =>
    exact takeRequest_answersOnly 0x04 number _ s .outOfRange 1 [] free fun p _ => handleSetAuto_outOfRange hi lo p not0 not1
  case done =>
    intro qt starts
    obtain ⟨t, runs, answers, keeps, eq⟩ := takeRequest_answers 0x04 number _ s _ .done 0 _ free
      (handleSetAuto_done hi lo _ enable) (Part.setAuto_slu ..)
    refine ⟨t, runs, answers, keeps, fun notStarts => ?written, fun starts => ?started⟩
    case written =>
      rw [Part.setAuto_of_not_starting] at eq
      · exact eq
      · exact fun ⟨wasOff, on, rest⟩ => notStarts ⟨wasOff, of_decide_eq_true on, rest⟩
    case started =>
      obtain ⟨wasOff, on, rest⟩ := starts
      rw [Part.setAuto_of_starting] at eq
      · exact eq
      · exact ⟨wasOff, decide_eq_true on, rest⟩

end Sys2Proof.Machine

/-!
SET REPORTS (R195): a request whose handling rewrites the link, the search for the first bad enable, what the handling answers, and
the obligation that these make up.
-/
namespace Sys2Proof.Machine

/-- A request whose handling may rewrite the link too, keeping the request in flight and the assembler hunting: its reply becomes
ready on the link that the handling leaves. -/
theorem takeRequest_answersOnLink (kind number : Byte) (handle : Part → Part × Reply) (s : State) (q : Part) (status : Status)
    (detail : Nat) (fields : List Byte) (free : s.part.slu.inFlight = none)
    (handled : handle { s.part with slu := { s.part.slu with assembler := .hunting, inFlight := some ⟨kind, number⟩ } }
      = (q, ⟨status, detail, fields⟩))
    (hunts : q.slu.assembler = .hunting) (taken : q.slu.inFlight = some ⟨kind, number⟩) :
    ∃ t, Host.Outcome.next (φ := Fault) (ρ := Refusal)
          { s with part := s.part.takeRequest kind number (replying handle) } = .next t
      ∧ Answers kind number status detail fields t ∧ LinkKeeps q.slu t.part.slu
      ∧ t = { s with part := { q with slu := t.part.slu } } := by
  refine ⟨_, rfl, ?_⟩
  rw [Part.takeRequest_taken _ _ _ _ free, handled]
  obtain ⟨asm, inFlight, slot, keeps⟩ := Slu.placeReply_choose q.slu kind number ⟨status, detail, fields⟩ taken
  exact ⟨⟨asm.trans hunts, inFlight, slot⟩, keeps, rfl⟩

/-! ### The first bad enable -/

theorem badEnable_of_good {body : List Byte} (good : ∀ x ∈ body, x = 0 ∨ x = 1) (n : Nat) : badEnable n body = none := by
  induction body generalizing n with
  | nil => rfl
  | cons b bs ih =>
    obtain ⟨head, tail⟩ := List.forall_mem_cons.1 good
    rw [badEnable, if_pos head]
    exact ih tail (n + 1)

/-- The field found is the first one that is no enable: those before it are passed over. -/
theorem badEnable_first {body : List Byte} {i : Nat} (inside : i < body.length)
    (before : ∀ j, j < i → body.getD j 0 = 0 ∨ body.getD j 0 = 1) (bad : ¬ (body.getD i 0 = 0 ∨ body.getD i 0 = 1)) (n : Nat) :
    badEnable n body = some (n + i) := by
  induction body generalizing i n with
  | nil => exact absurd inside (Nat.not_lt_zero i)
  | cons b bs ih =>
    cases i with
    | zero =>
      rw [List.getD_cons_zero] at bad
      rw [badEnable, if_neg bad, Nat.add_zero]
    | succ i =>
      rw [List.getD_cons_succ] at bad
      have head : b = 0 ∨ b = 1 := before 0 (Nat.succ_pos i)
      have tail : ∀ j, j < i → bs.getD j 0 = 0 ∨ bs.getD j 0 = 1 := fun j lt => before (j + 1) (Nat.succ_lt_succ lt)
      rw [badEnable, if_pos head, ih (Nat.lt_of_succ_lt_succ inside) tail bad (n + 1)]
      congr 1
      omega

/-! ### The handling (R195) -/

theorem handleSetReports_badForm {body : List Byte} (p : Part) (len : body.length ≠ 11) :
    handleSetReports body p = (p, .plain .badForm 0) := by
  rw [handleSetReports, lengthIs_of_ne len, checked_some]

theorem handleSetReports_outOfRange {body : List Byte} {field : Nat} (p : Part) (len : body.length = 11)
    (fails : badEnable 1 body = some field) : handleSetReports body p = (p, .plain .outOfRange field) := by
  rw [handleSetReports, lengthIs_of_eq len, checked_none, fails, Option.map_some, checked_some]

theorem handleSetReports_done {body : List Byte} (p : Part) (len : body.length = 11) (good : ∀ x ∈ body, x = 0 ∨ x = 1) :
    handleSetReports body p =
      ({ p with slu := { p.slu with mask := body.map fun x => decide (x = 1) } }, .done body) := by
  rw [handleSetReports, lengthIs_of_eq len, checked_none, badEnable_of_good good, Option.map_none, checked_none]
  rfl

/-- Settles O17: a body of another length, and the first enable that is neither 0 nor 1, are refused with the part unchanged;
otherwise the mask is all that the handling writes. -/
theorem setReportsWritesMask : Obligations.SetReportsWritesMask := by
  unfold Obligations.SetReportsWritesMask
  intro number body s free
  refine ⟨fun len => ?badForm, fun i len inside before not0 not1 => ?outOfRange, fun len good => ?done⟩
  case badForm =>
    exact takeRequest_answersOnly 0x13 number _ s .badForm 0 [] free fun p _ => handleSetReports_badForm p len
  case outOfRange =>
    have first : badEnable 1 body = some (i + 1) := by
      rw [badEnable_first (len ▸ inside) before (not_or.2 ⟨not0, not1⟩), Nat.add_comm]
    exact takeRequest_answersOnly 0x13 number _ s .outOfRange (i + 1) [] free fun p _ => handleSetReports_outOfRange p len first
  case done =>
    obtain ⟨t, runs, answers, keeps, eq⟩ := takeRequest_answersOnLink 0x13 number _ s _ .done 0 body free
      (handleSetReports_done _ len good) rfl rfl
    exact ⟨t, runs, eq, answers, keeps⟩

end Sys2Proof.Machine

/-!
READ BAY (R189): the absent values of a reply's fields (R177), the fields of a ROOMABLE bay and of a CORE one, what the handling
answers, and the obligation that these make up.
-/
namespace Sys2Proof.Machine

/-! ### Bytes of a reply (R177) -/

/-- A byte that a request carries is shown again as it came. -/
theorem byteOf_toNat (b : Byte) : byteOf b.toNat = b := BitVec.ofNat_toNat ..

theorem byteOr255_eq (o : Option Nat) : byteOr255 o = (o.map byteOf).getD 255 := by
  cases o <;> rfl

theorem bytes16OrFFFF_eq (o : Option Nat) : bytes16OrFFFF o = (o.map bytes16).getD [0xFF, 0xFF] := by
  cases o <;> rfl

theorem causeField_eq (o : Option FailureCause) : causeField o = (o.map FailureCause.code).getD 255 := by
  cases o <;> rfl

theorem pairFields_eq (o : Option Pair) : pairFields o = [(o.map Pair.level).getD 255, (o.map Pair.damper).getD 255] := by
  cases o <;> rfl

/-! ### The fields of a bay (R189) -/

theorem Bay.fields_core (b : Byte) :
    Bay.core.fields b.toNat =
      [b, 1, 0, 0, 255, 255, 255, 0, 0, 255, 255, 255, 255, 255, 255, 0xFF, 0xFF, 0xFF, 0xFF, 0, 0, 0] := by
  rw [Bay.fields, byteOf_toNat]
  rfl

theorem Bay.fields_roomable (b : Byte) (r : BayRec) :
    (Bay.roomable r).fields b.toNat =
      [b, 0, r.health.code, byteOf r.failures, (r.lastFailure.map FailureCause.code).getD 255, byteOf r.tag,
          (r.nextTag.map byteOf).getD 255, byteOfFlag r.folded]
        ++ inputFields r.inputs
        ++ [(r.keyCounter.map byteOf).getD 255, (r.lastSent.map Pair.level).getD 255, (r.lastSent.map Pair.damper).getD 255]
        ++ (r.level.map bytes16).getD [0xFF, 0xFF] ++ (r.target.map bytes16).getD [0xFF, 0xFF]
        ++ [byteOf r.q] ++ bytes16 r.moves := by
  simp only [Bay.fields, byteOf_toNat, byteOr255_eq, bytes16OrFFFF_eq, causeField_eq, pairFields_eq, List.append_assoc,
    List.cons_append, List.nil_append]

/-! ### The handling (R189) -/

theorem handleReadBay_notReady (b : Byte) {p : Part} (noFloor : p.fm.state = .unconfigured) :
    handleReadBay [b] p = (p, .plain .notReady 0) := by
  rw [handleReadBay, lengthIs_of_eq (by rfl), checked_none, Part.configured_of_unconfigured noFloor, checked_some]

section
variable {b : Byte} {p : Part} (floor : p.fm.state ≠ .unconfigured)
include floor

theorem handleReadBay_noSuch (noBay : p.fm.bay? b.toNat = none) : handleReadBay [b] p = (p, .plain .noSuch 1) := by
  rw [handleReadBay, lengthIs_of_eq (by rfl), checked_none, Part.configured_of_floor floor, checked_none, fieldAt_cons_zero,
    noBay]

theorem handleReadBay_done {x : Bay} (bay : p.fm.bay? b.toNat = some x) :
    handleReadBay [b] p = (p, .done (x.fields b.toNat)) := by
  rw [handleReadBay, lengthIs_of_eq (by rfl), checked_none, Part.configured_of_floor floor, checked_none, fieldAt_cons_zero, bay]

end

/-- Settles O28: the handling changes nothing in any case; past the checks its reply carries the bay's fields, written out by
`Bay.fields_core` and `Bay.fields_roomable`. -/
theorem readBayShowsRecord : Obligations.ReadBayShowsRecord := by
  unfold Obligations.ReadBayShowsRecord
  refine ⟨fun number b s free noFloor => ?notReady, fun number b s free floor => ?withFloor⟩
  case notReady =>
    exact takeRequest_answersOnly 0x0C number _ s .notReady 0 [] free fun p same => handleReadBay_notReady b (same ▸ noFloor)
  case withFloor =>
    refine ⟨fun noBay => ?noSuch, fun core => ?core, fun r roomable => ?roomable⟩
    case noSuch =>
      exact takeRequest_answersOnly 0x0C number _ s .noSuch 1 [] free fun p same =>
        handleReadBay_noSuch (same ▸ floor) (same ▸ noBay)
    case core =>
      rw [← Bay.fields_core b]
      exact takeRequest_answersOnly 0x0C number _ s .done 0 _ free fun p same => handleReadBay_done (same ▸ floor) (same ▸ core)
    case roomable =>
      have shown := takeRequest_answersOnly 0x0C number (handleReadBay [b]) s .done 0 ((Bay.roomable r).fields b.toNat) free
        fun p same => by
          have bay : p.fm.bay? b.toNat = some (.roomable r) := same ▸ roomable
          exact handleReadBay_done (same ▸ floor) bay
      rw [Bay.fields_roomable] at shown
      exact shown

end Sys2Proof.Machine

/-!
READ EDGES and READ CHANGES (R190, R191): two-byte fields that come back as they went, what a FIXED edge reads, what each handling
answers, and the obligation that these make up.
-/
namespace Sys2Proof.Machine

/-! ### Two-byte fields -/

theorem field16At_cons_zero (hi lo : Byte) (body : List Byte) : field16At (hi :: lo :: body) 0 = word16 hi lo := rfl

/-- The third byte of a body. -/
theorem fieldAt_cons_two (a b c : Byte) (body : List Byte) : fieldAt (a :: b :: c :: body) 2 = c.toNat := rfl

/-- A two-byte field that a request carries is shown again as it came. -/
theorem bytes16_word16 (hi lo : Byte) : bytes16 (word16 hi lo) = [hi, lo] := by
  have low : lo.toNat < 256 := lo.isLt
  have quotient : (hi.toNat * 256 + lo.toNat) / 256 = hi.toNat := by omega
  have remainder : byteOf (hi.toNat * 256 + lo.toNat) = lo := by
    apply BitVec.eq_of_toNat_eq
    rw [byteOf, BitVec.toNat_ofNat]
    omega
  rw [bytes16, word16, quotient, byteOf_toNat, remainder]

/-! ### The edges shown (R190) -/

theorem Pmon.edge?_eq_none_iff (m : Pmon) (e : Nat) : m.edge? e = none ↔ e = 0 ∨ m.edges.length < e := by
  unfold Pmon.edge?
  split_ifs with zero
  · simp only [zero, true_or]
  · rw [List.getElem?_eq_none_iff]
    omega

theorem Pmon.edge?_ne_none {m : Pmon} {e : Nat} (positive : 1 ≤ e) (held : e ≤ m.edges.length) : m.edge? e ≠ none := by
  rw [Ne, Pmon.edge?_eq_none_iff]
  omega

/-- The edges that a page of `count` shows from the first id on. -/
def Pmon.edgePage (m : Pmon) (first count : Nat) : List Edge := (m.edges.drop (first - 1)).take count

theorem Pmon.edgePage_length {m : Pmon} {first : Nat} (count : Nat) (positive : 1 ≤ first) :
    (m.edgePage first count).length = min count (m.edges.length + 1 - first) := by
  rw [edgePage, List.length_take, List.length_drop]
  omega

/-- R41, R190: a FIXED edge holds as it was set up, WALLED and with its raw field UNKNOWN. -/
theorem Edge.codes_of_fixed {x : Edge} {p : Part} (valid : EdgesValid p) (mem : x ∈ p.pmon.edges) (fixed : x.kind = .fixed) :
    x.codes = [4, 17] := by
  obtain ⟨setUp, -⟩ := valid x mem
  rw [setUp fixed]
  rfl

/-! ### The handlings (R190, R191) -/

theorem handleReadEdges_notReady (hi lo count : Byte) {p : Part} (noFloor : p.fm.state = .unconfigured) :
    handleReadEdges [hi, lo, count] p = (p, .plain .notReady 0) := by
  rw [handleReadEdges, lengthIs_of_eq (by rfl), checked_none, Part.configured_of_unconfigured noFloor, checked_some]

theorem handleReadChanges_notReady (hi lo : Byte) {p : Part} (noFloor : p.fm.state = .unconfigured) :
    handleReadChanges [hi, lo] p = (p, .plain .notReady 0) := by
  rw [handleReadChanges, lengthIs_of_eq (by rfl), checked_none, Part.configured_of_unconfigured noFloor, checked_some]

section
variable {hi lo count : Byte} {p : Part} (floor : p.fm.state ≠ .unconfigured)
include floor

/-- R190: the checks of READ EDGES in their order, and the page it shows past them. -/
theorem handleReadEdges_of_floor :
    handleReadEdges [hi, lo, count] p =
      if p.pmon.edge? (word16 hi lo) = none then (p, .plain .noSuch 1)
      else if 1 ≤ count.toNat ∧ count.toNat ≤ 64 then
        (p, .done ([hi, lo] ++ byteOf (p.pmon.edgePage (word16 hi lo) count.toNat).length
          :: (p.pmon.edgePage (word16 hi lo) count.toNat).flatMap Edge.codes))
      else (p, .plain .outOfRange 2) := by
  rw [handleReadEdges, lengthIs_of_eq (by rfl), checked_none, Part.configured_of_floor floor, checked_none,
    field16At_cons_zero, fieldAt_cons_two]
  dsimp only
  rw [bytes16_word16]
  cases edge : p.pmon.edge? (word16 hi lo) with
  | none => simp
  | some _ =>
    by_cases inRange : 1 ≤ count.toNat ∧ count.toNat ≤ 64
    · simp [inRange, Pmon.edgePage]
    · simp [inRange]

theorem handleReadEdges_noSuch (outside : word16 hi lo = 0 ∨ p.pmon.edges.length < word16 hi lo) :
    handleReadEdges [hi, lo, count] p = (p, .plain .noSuch 1) := by
  rw [handleReadEdges_of_floor floor, if_pos ((p.pmon.edge?_eq_none_iff _).2 outside)]

section
variable (positive : 1 ≤ word16 hi lo) (held : word16 hi lo ≤ p.pmon.edges.length)
include positive held

theorem handleReadEdges_outOfRange (beyond : ¬ (1 ≤ count.toNat ∧ count.toNat ≤ 64)) :
    handleReadEdges [hi, lo, count] p = (p, .plain .outOfRange 2) := by
  rw [handleReadEdges_of_floor floor, if_neg (Pmon.edge?_ne_none positive held), if_neg beyond]

theorem handleReadEdges_done (inRange : 1 ≤ count.toNat ∧ count.toNat ≤ 64) :
    handleReadEdges [hi, lo, count] p =
      (p, .done ([hi, lo] ++ byteOf (p.pmon.edgePage (word16 hi lo) count.toNat).length
        :: (p.pmon.edgePage (word16 hi lo) count.toNat).flatMap Edge.codes)) := by
  rw [handleReadEdges_of_floor floor, if_neg (Pmon.edge?_ne_none positive held), if_pos inRange]

end

/-- R191: READ CHANGES has no check but the floor's. -/
theorem handleReadChanges_done :
    handleReadChanges [hi, lo] p =
      (p, .done (bytes16 p.pmon.netChange.length ++ [hi, lo]
        ++ byteOf ((p.pmon.netChange.drop (word16 hi lo)).take 90).length
          :: ((p.pmon.netChange.drop (word16 hi lo)).take 90).flatMap bytes16)) := by
  rw [handleReadChanges, lengthIs_of_eq (by rfl), checked_none, Part.configured_of_floor floor, checked_none,
    field16At_cons_zero]
  dsimp only
  rw [bytes16_word16]

end

/-- Settles O29: neither handling changes anything in any case; READ EDGES shows the page of edges past its two checks, READ CHANGES
its page of ids past none. -/
theorem readEdgesAndChangesShowPartitions : Obligations.ReadEdgesAndChangesShowPartitions := by
  unfold Obligations.ReadEdgesAndChangesShowPartitions
  refine ⟨fun number hi lo count s free noFloor => ⟨?edgesNotReady, ?changesNotReady⟩,
    fun x p valid mem fixed => Edge.codes_of_fixed valid mem fixed,
    fun number hi lo count s free floor => ⟨fun outside => ?noSuch, fun positive held bad => ?outOfRange,
      fun positive held atLeast atMost => ?edgesDone⟩,
    fun number hi lo s free floor => ?changesDone⟩
  case edgesNotReady =>
    exact takeRequest_answersOnly 0x0D number _ s .notReady 0 [] free fun p same =>
      handleReadEdges_notReady hi lo count (same ▸ noFloor)
  case changesNotReady =>
    exact takeRequest_answersOnly 0x0E number _ s .notReady 0 [] free fun p same =>
      handleReadChanges_notReady hi lo (same ▸ noFloor)
  case noSuch =>
    exact takeRequest_answersOnly 0x0D number _ s .noSuch 1 [] free fun p same =>
      handleReadEdges_noSuch (same ▸ floor) (same ▸ outside)
  case outOfRange =>
    have beyond : ¬ (1 ≤ count.toNat ∧ count.toNat ≤ 64) := by
      rcases bad with rfl | above
      · decide
      · omega
    exact takeRequest_answersOnly 0x0D number _ s .outOfRange 2 [] free fun p same => by
      subst same
      exact handleReadEdges_outOfRange floor positive held beyond
  case edgesDone =>
    obtain ⟨t, runs, answers⟩ := takeRequest_answersOnly 0x0D number _ s .done 0 _ free fun p same => by
      subst same
      exact handleReadEdges_done floor positive held ⟨atLeast, atMost⟩
    exact ⟨t, runs, Pmon.edgePage_length _ positive, answers⟩
  case changesDone =>
    exact takeRequest_answersOnly 0x0E number _ s .done 0 _ free fun p same => by
      subst same
      exact handleReadChanges_done floor

end Sys2Proof.Machine

/-!
What the operations inside an event keep: the link but for the reports raised, the cell bus but for the drive-pending set, the floor
model but for the bay records, and the parameters that requests write. One relation says it, and one lemma per operation.
-/
namespace Sys2Proof.Machine

/-! ### Reports raised one after another -/

/-- Reports raised in order with one stamp (R172). -/
def Slu.raiseAll (u : Slu) (rs : List Report) (stamp : Clock) : Slu := rs.foldl (fun u r => u.raise r stamp) u

@[simp] theorem Slu.raiseAll_nil (u : Slu) (c : Clock) : u.raiseAll [] c = u := rfl

@[simp] theorem Slu.raiseAll_cons (u : Slu) (r : Report) (rs : List Report) (c : Clock) :
    u.raiseAll (r :: rs) c = (u.raise r c).raiseAll rs c := rfl

theorem Slu.raiseAll_append (u : Slu) (rs rs' : List Report) (c : Clock) :
    u.raiseAll (rs ++ rs') c = (u.raiseAll rs c).raiseAll rs' c := List.foldl_append

theorem Part.raiseAll_slu_eq (p : Part) (rs : List Report) : (p.raiseAll rs).slu = p.slu.raiseAll rs p.fm.clock := by
  induction rs generalizing p with
  | nil => rfl
  | cons r rs ih => exact ih (p.raise r)

/-- Raising a report writes the queue and the lost flag alone. -/
theorem Slu.raise_eq (u : Slu) (r : Report) (c : Clock) :
    u.raise r c = { u with queue := (u.raise r c).queue, lost := (u.raise r c).lost } := by
  unfold raise
  split
  · split <;> rfl
  · rfl

theorem Slu.raiseAll_eq (u : Slu) (rs : List Report) (c : Clock) :
    u.raiseAll rs c = { u with queue := (u.raiseAll rs c).queue, lost := (u.raiseAll rs c).lost } := by
  induction rs generalizing u with
  | nil => rfl
  | cons r rs ih =>
    rw [raiseAll_cons, ih (u.raise r c), u.raise_eq r c]

theorem Slu.raiseAll_length {u : Slu} (rs : List Report) (c : Clock) (h : u.queue.length ≤ 16) :
    (u.raiseAll rs c).queue.length ≤ 16 := by
  induction rs generalizing u with
  | nil => exact h
  | cons r rs ih => exact ih (u.raise_length r c h)

/-- A queued record stays at its place while more are queued behind it. -/
theorem Slu.raiseAll_getElem? {u : Slu} (rs : List Report) (c : Clock) {i : Nat} {x : Record} (h : u.queue[i]? = some x) :
    (u.raiseAll rs c).queue[i]? = some x := by
  induction rs generalizing u with
  | nil => exact h
  | cons r rs ih => exact ih (u.raise_queue_getElem? r c i x h)

/-- Reports that are all enabled and find room are queued in order. -/
theorem Slu.raiseAll_queued {u : Slu} {rs : List Report} (c : Clock) (on : ∀ r ∈ rs, Enabled u r.code)
    (room : u.queue.length + rs.length ≤ 16) : u.raiseAll rs c = { u with queue := u.queue ++ rs.map fun r => ⟨r, c⟩ } := by
  induction rs generalizing u with
  | nil => simp
  | cons r rs ih =>
    obtain ⟨onHead, onTail⟩ := List.forall_mem_cons.1 on
    rw [List.length_cons] at room
    rw [raiseAll_cons, Slu.raise_queue u r c onHead (by omega), ih]
    · simp
    · exact onTail
    · simp only [List.length_append, List.length_cons, List.length_nil]
      omega

/-- What is queued stays in front of what is raised after it. -/
theorem Slu.raiseAll_prefix (u : Slu) (rs : List Report) (c : Clock) :
    ∃ more, (u.raiseAll rs c).queue = u.queue ++ more := by
  induction rs generalizing u with
  | nil => exact ⟨[], by simp⟩
  | cons r rs ih =>
    obtain ⟨more, eq⟩ := ih (u.raise r c)
    have first : ∃ one, (u.raise r c).queue = u.queue ++ one := by
      unfold raise
      split
      · split
        · exact ⟨[], by simp⟩
        · exact ⟨_, rfl⟩
      · exact ⟨[], by simp⟩
    obtain ⟨one, eq'⟩ := first
    exact ⟨one ++ more, by rw [raiseAll_cons, eq, eq', List.append_assoc]⟩

/-! ### What the operations inside an event keep -/

/-- What every operation of the blocks behind the link keeps while an event runs. -/
structure Part.Keeps (p q : Part) : Prop where
  raised : ∃ rs, q.slu = p.slu.raiseAll rs p.fm.clock
  cbm : q.cbm = { p.cbm with drivePending := q.cbm.drivePending }
  fm : q.fm = { p.fm with bays := q.fm.bays }
  roomable : ∀ b, (q.fm.node? b).isSome = (p.fm.node? b).isSome
  joins : ∀ b, b ∈ p.cbm.drivePending → b ∈ q.cbm.drivePending
  pending : PendingLaws p → PendingLaws q
  auto : q.pmon.auto = p.pmon.auto
  qt : q.pmon.qt = p.pmon.qt
  mode : q.cut.mode = p.cut.mode
  interval : q.cut.interval = p.cut.interval
  limit : q.cut.limit = p.cut.limit
  afa : q.afa = { p.afa with timer := q.afa.timer }

namespace Part.Keeps
variable {p q r : Part}

theorem clock (h : p.Keeps q) : q.fm.clock = p.fm.clock := by rw [h.fm]
theorem state (h : p.Keeps q) : q.fm.state = p.fm.state := by rw [h.fm]

theorem refl (p : Part) : p.Keeps p where
  raised := ⟨[], rfl⟩
  cbm := rfl
  fm := rfl
  roomable _ := rfl
  joins _ := id
  pending := id
  auto := rfl
  qt := rfl
  mode := rfl
  interval := rfl
  limit := rfl
  afa := rfl

theorem trans (pq : p.Keeps q) (qr : q.Keeps r) : p.Keeps r where
  raised := by
    obtain ⟨rs, eq⟩ := pq.raised
    obtain ⟨rs', eq'⟩ := qr.raised
    exact ⟨rs ++ rs', by rw [eq', eq, pq.clock, Slu.raiseAll_append]⟩
  cbm := by rw [qr.cbm, pq.cbm]
  fm := by rw [qr.fm, pq.fm]
  roomable b := (qr.roomable b).trans (pq.roomable b)
  joins b mem := qr.joins b (pq.joins b mem)
  pending := qr.pending ∘ pq.pending
  auto := qr.auto.trans pq.auto
  qt := qr.qt.trans pq.qt
  mode := qr.mode.trans pq.mode
  interval := qr.interval.trans pq.interval
  limit := qr.limit.trans pq.limit
  afa := by rw [qr.afa, pq.afa]

/-- A step that may be left out. -/
theorem ite {c : Prop} [Decidable c] (yes : p.Keeps q) (no : p.Keeps r) : p.Keeps (if c then q else r) := by
  split
  · exact yes
  · exact no

theorem foldl {α : Type} {f : Part → α → Part} (step : ∀ (p : Part) (a : α), p.Keeps (f p a)) (l : List α) (p : Part) :
    p.Keeps (l.foldl f p) := by
  induction l generalizing p with
  | nil => exact refl p
  | cons a l ih => exact (step p a).trans (ih _)

/-! Of the rewritings of one block. -/

/-- Zones, solve states, cutover records and free values are no part of what is kept. -/
theorem of_blocks {p q : Part} (slu : q.slu = p.slu) (cbm : q.cbm = p.cbm) (fm : q.fm = p.fm) (auto : q.pmon.auto = p.pmon.auto)
    (qt : q.pmon.qt = p.pmon.qt) (mode : q.cut.mode = p.cut.mode) (interval : q.cut.interval = p.cut.interval)
    (limit : q.cut.limit = p.cut.limit) (afa : q.afa = { p.afa with timer := q.afa.timer }) : p.Keeps q where
  raised := ⟨[], slu⟩
  cbm := by rw [cbm]
  fm := by rw [fm]
  roomable _ := by rw [fm]
  joins b mem := by rwa [cbm]
  pending h := by rw [PendingLaws, cbm, fm]; exact h
  auto := auto
  qt := qt
  mode := mode
  interval := interval
  limit := limit
  afa := afa

theorem mapZt (g : Zt → Zt) (p : Part) : p.Keeps (p.mapZt g) := of_blocks rfl rfl rfl rfl rfl rfl rfl rfl rfl
theorem mapRsq (g : Rsq → Rsq) (p : Part) : p.Keeps (p.mapRsq g) := of_blocks rfl rfl rfl rfl rfl rfl rfl rfl rfl
theorem draw (p : Part) : p.Keeps p.draw := of_blocks rfl rfl rfl rfl rfl rfl rfl rfl rfl

theorem mapPmon (g : Pmon → Pmon) (p : Part) (auto : (g p.pmon).auto = p.pmon.auto) (qt : (g p.pmon).qt = p.pmon.qt) :
    p.Keeps (p.mapPmon g) := of_blocks rfl rfl rfl auto qt rfl rfl rfl rfl

theorem mapCut (g : Cut → Cut) (p : Part) (mode : (g p.cut).mode = p.cut.mode) (interval : (g p.cut).interval = p.cut.interval)
    (limit : (g p.cut).limit = p.cut.limit) : p.Keeps (p.mapCut g) := of_blocks rfl rfl rfl rfl rfl mode interval limit rfl

theorem mapNodes (g : Nat → BayRec → BayRec) (p : Part) : p.Keeps (p.mapFm (·.mapNodes g)) where
  raised := ⟨[], rfl⟩
  cbm := rfl
  fm := rfl
  roomable b := by simp
  joins _ := id
  pending h := ⟨h.1, fun b mem => by simpa using h.2 b mem⟩
  auto := rfl
  qt := rfl
  mode := rfl
  interval := rfl
  limit := rfl
  afa := rfl

theorem modifyNode (b : Nat) (g : BayRec → BayRec) (p : Part) : p.Keeps (p.modifyNode b g) := mapNodes _ p

theorem raise (r : Report) (p : Part) : p.Keeps (p.raise r) where
  raised := ⟨[r], rfl⟩
  cbm := rfl
  fm := rfl
  roomable _ := rfl
  joins _ := id
  pending := id
  auto := rfl
  qt := rfl
  mode := rfl
  interval := rfl
  limit := rfl
  afa := rfl

theorem raiseAll (rs : List Report) (p : Part) : p.Keeps (p.raiseAll rs) := foldl (fun p r => raise r p) rs p

/-! Of the drive-pending set. -/

theorem joinPending {b : Nat} {p : Part} (roomable : (p.fm.node? b).isSome = true) : p.Keeps (p.joinPending b) where
  raised := ⟨[], rfl⟩
  cbm := rfl
  fm := rfl
  roomable _ := rfl
  joins c mem := (mem_insertSet b c _).2 (.inr mem)
  pending := p.joinPending_laws b roomable
  auto := rfl
  qt := rfl
  mode := rfl
  interval := rfl
  limit := rfl
  afa := rfl

theorem handOver (b : Nat) (p : Part) : p.Keeps (p.handOver b) := by
  unfold Part.handOver
  split
  case h_1 r node => exact ite (refl p) (joinPending (by rw [node]; rfl))
  case h_2 => exact refl p

theorem handOverAll (bs : List Nat) (p : Part) : p.Keeps (p.handOverAll bs) := foldl (fun p b => handOver b p) bs p

theorem joinPendings {bs : List Nat} {p : Part} (roomable : ∀ b ∈ bs, (p.fm.node? b).isSome = true) :
    p.Keeps (bs.foldl (fun p b => p.joinPending b) p) := by
  induction bs generalizing p with
  | nil => exact refl p
  | cons b bs ih =>
    obtain ⟨head, tail⟩ := List.forall_mem_cons.1 roomable
    have joined : p.Keeps (p.joinPending b) := joinPending head
    exact joined.trans (ih tail)

theorem joinAll (p : Part) : p.Keeps p.joinAll := joinPendings fun b mem => (p.fm.mem_roomable b).1 mem

/-! Of the lighting. -/

theorem retargetBay (b : Nat) (p : Part) : p.Keeps (p.retargetBay b) := by
  unfold Part.retargetBay
  split
  · split
    · exact modifyNode ..
    · exact refl p
  · exact refl p

theorem retargetZone (tag : Nat) (p : Part) : p.Keeps (p.retargetZone tag) := by
  unfold Part.retargetZone
  split
  · exact mapNodes ..
  · exact refl p

theorem retargetAll (p : Part) : p.Keeps p.retargetAll := mapNodes _ p

theorem occupiedFlag (tag : Nat) (o : Bool) (p : Part) : p.Keeps (p.occupiedFlag tag o) := by
  unfold Part.occupiedFlag
  split
  · dsimp only
    split
    · exact ((mapZt _ p).trans (raise _ _)).trans (retargetZone _ _)
    · exact mapZt ..
  · exact refl p
  · exact refl p

theorem vacancyExpiry (tag : Nat) (p : Part) : p.Keeps (p.vacancyExpiry tag) := by
  unfold Part.vacancyExpiry
  split
  · exact ite (((mapZt _ p).trans (raise _ _)).trans (retargetZone _ _)) (refl p)
  · exact refl p

theorem keypadEvent (b : Nat) (k : Key) (p : Part) : p.Keeps (p.keypadEvent b k) := by
  unfold Part.keypadEvent
  split
  · exact (mapZt _ p).trans (retargetZone _ _)
  · exact refl p

theorem fadeTick (p : Part) : p.Keeps p.fadeTick := by
  unfold Part.fadeTick
  split
  · exact (mapNodes _ p).trans (handOverAll _ _)
  · exact refl p
  · exact refl p

theorem lightFloor (p : Part) : p.Keeps p.lightFloor := by
  unfold Part.lightFloor
  exact (((retargetAll p).trans (mapNodes _ _)).trans (handOverAll _ _)).trans (mapZt _ _)

/-! Of the zone table and the airflow. -/

theorem freeZone (tag : Nat) (p : Part) : p.Keeps (p.freeZone tag) := (mapZt _ p).trans (raiseAll _ _)

theorem reanchor (tag : Nat) (p : Part) : p.Keeps (p.reanchor tag) := mapZt _ p

theorem zoneCounts (old new : Nat) (p : Part) : p.Keeps (p.zoneCounts old new) := by
  unfold Part.zoneCounts
  dsimp only
  have counted := ((((mapZt (·.modifyZone old fun z => { z with members := z.members - 1, outgoing := z.outgoing - 1 }) p).trans
    (mapZt (·.modifyZone new fun z => { z with members := z.members + 1, incoming := z.incoming - 1 }) _)).trans
    (mapZt (·.modifyZone new fun z =>
      if z.life = .born then { z with life := .live }.startOccupied p.fm.clock else z) _)).trans (reanchor old _)).trans
    (reanchor new _)
  split
  · exact ite (counted.trans (freeZone _ _)) counted
  · exact counted

theorem setCounts (p : Part) : p.Keeps p.setCounts := mapZt _ p

theorem zoneClimate (tag : Nat) (p : Part) : p.Keeps (p.zoneClimate tag) := by
  unfold Part.zoneClimate
  split
  · exact ite (mapZt _ p) ((mapZt _ p).trans (raise _ _))
  · exact refl p

theorem restartTimer (f : Afa → Timer) (p : Part) : p.Keeps (p.mapAfa fun a => { a with timer := f a }) :=
  of_blocks rfl rfl rfl rfl rfl rfl rfl rfl rfl

theorem allocate (p : Part) : p.Keeps p.allocate := by
  unfold Part.allocate
  split
  · exact refl p
  · exact ((((foldl (fun p t => zoneClimate t p) _ p).trans (mapZt _ _)).trans (mapNodes _ _)).trans (handOverAll _ _)).trans
      (restartTimer _ _)

/-! Of the sequencer and the cutover. -/

theorem startSolve (p : Part) : p.Keeps p.startSolve := of_blocks rfl rfl rfl rfl rfl rfl rfl rfl rfl
theorem notice (p : Part) : p.Keeps p.notice := ite (startSolve p) (refl p)
theorem decideAtIdle (p : Part) : p.Keeps p.decideAtIdle := ite (startSolve p) (refl p)
theorem returnToIdle (p : Part) : p.Keeps p.returnToIdle := (mapRsq _ p).trans (decideAtIdle _)

theorem cutBay (b : Nat) (p : Part) : p.Keeps (p.cutBay b) := by
  have listed : p.Keeps (p.mapCut fun c => { c with list := removeSet b c.list }) := mapCut _ p rfl rfl rfl
  unfold Part.cutBay
  dsimp only
  split
  · split
    · exact (((listed.trans (modifyNode _ _ _)).trans (zoneCounts _ _ _)).trans (retargetBay _ _)).trans (mapCut _ _ rfl rfl rfl)
    · exact listed
  · exact listed

theorem cutBays (bs : List Nat) (p : Part) : p.Keeps (p.cutBays bs) := foldl (fun p b => cutBay b p) bs p

theorem completeCutover (c : EndCause) (p : Part) : p.Keeps (p.completeCutover c) := by
  unfold Part.completeCutover
  dsimp only
  refine Keeps.trans ?_ (returnToIdle _)
  refine Keeps.trans ?_ (mapCut _ _ rfl rfl rfl)
  have reported : p.Keeps (match (p.mapCut fun c => { c with stepTimer := .stopped, deadline := .stopped }).cut.run with
      | some r => (p.mapCut fun c => { c with stepTimer := .stopped, deadline := .stopped }).raise
          (.cutoverDone r.listed r.moved c ((p.mapCut fun c => { c with stepTimer := .stopped, deadline := .stopped }).fm.clock - r.start))
      | none => p.mapCut fun c => { c with stepTimer := .stopped, deadline := .stopped }) := by
    split
    · exact (mapCut _ p rfl rfl rfl).trans (raise _ _)
    · exact mapCut _ p rfl rfl rfl
  split
  · exact reported.trans (allocate _)
  · exact reported
  · exact reported

theorem completeIfEmpty (c : EndCause) (p : Part) : p.Keeps (p.completeIfEmpty c) := ite (completeCutover c p) (refl p)

theorem cutRemaining (c : EndCause) (p : Part) : p.Keeps (p.cutRemaining c) := (cutBays _ p).trans (completeIfEmpty _ _)

theorem startCutover (pacing : Pacing) (listed : List Nat) (p : Part) : p.Keeps (p.startCutover pacing listed) := by
  have filled : p.Keeps (p.mapCut fun c => { c with list := listed, run := some ⟨p.fm.clock, listed.length, 0⟩ }) :=
    mapCut _ p rfl rfl rfl
  unfold Part.startCutover
  dsimp only
  cases pacing with
  | block => exact filled.trans (cutRemaining _ _)
  | step => exact (filled.trans (mapRsq _ _)).trans (mapCut _ _ rfl rfl rfl)
  | vacant =>
    exact (((filled.trans (mapRsq _ _)).trans (mapCut _ _ rfl rfl rfl)).trans (cutBays _ _)).trans (completeIfEmpty _ _)

theorem stepExpiry (p : Part) : p.Keeps p.stepExpiry := by
  unfold Part.stepExpiry
  refine ite ?_ (refl p)
  exact (cutBays _ p).trans (ite (completeCutover _ _) (mapCut _ _ rfl rfl rfl))

theorem vacantVisit (b : Nat) (o : Bool) (p : Part) : p.Keeps (p.vacantVisit b o) :=
  ite ((cutBay b p).trans (completeIfEmpty _ _)) (refl p)

theorem silentVisit (b : Nat) (p : Part) : p.Keeps (p.silentVisit b) :=
  ite ((cutBay b p).trans (completeIfEmpty _ _)) (refl p)

theorem deadlineExpiry (p : Part) : p.Keeps p.deadlineExpiry := by
  have passed : p.Keeps (p.mapCut fun c => { c with deadline := .passed }) := mapCut _ p rfl rfl rfl
  unfold Part.deadlineExpiry
  split
  · refine ite ?_ (refl p)
    dsimp only
    split
    · exact passed.trans (cutRemaining _ _)
    · exact passed
    · exact passed
  · exact refl p
  · exact refl p

theorem moveDeadline (limit : Nat) (p : Part) : p.Keeps (p.moveDeadline limit) := by
  obtain ⟨d, n, eq, -⟩ := p.moveDeadline_spec limit
  rw [eq]
  exact of_blocks rfl rfl rfl rfl rfl rfl rfl rfl rfl

theorem repace (p : Part) : p.Keeps p.repace := by
  unfold Part.repace
  dsimp only
  refine (moveDeadline p.cut.limit p).trans ?_
  split
  · exact cutRemaining _ _
  · exact mapCut _ _ rfl rfl rfl
  · exact (mapCut _ _ rfl rfl rfl).trans (ite (cutRemaining _ _) ((cutBays _ _).trans (completeIfEmpty _ _)))

/-! Of the partition monitor. -/

theorem effectiveChange (e : Nat) (n : EdgeState) (p : Part) : p.Keeps (p.effectiveChange e n) := by
  have noted (m : Pmon) : (m.noteChange e n).auto = m.auto ∧ (m.noteChange e n).qt = m.qt := by
    unfold Pmon.noteChange
    split
    · split <;> exact ⟨rfl, rfl⟩
    · exact ⟨rfl, rfl⟩
  have stirred (now : Clock) (m : Pmon) : (m.stir now).auto = m.auto ∧ (m.stir now).qt = m.qt := by
    unfold Pmon.stir
    split
    · split
      · split <;> exact ⟨rfl, rfl⟩
      · exact ⟨rfl, rfl⟩
      · exact ⟨rfl, rfl⟩
    · exact ⟨rfl, rfl⟩
  have moved (p : Part) : p.Keeps (p.mapPmon fun m => (m.noteChange e n).stir p.fm.clock) :=
    mapPmon _ p ((stirred _ _).1.trans (noted _).1) ((stirred _ _).2.trans (noted _).2)
  have flagged (p : Part) : p.Keeps (p.mapPmon fun m => { m with changed := true }) := mapPmon _ p rfl rfl
  unfold Part.effectiveChange
  dsimp only
  split
  · split
    · exact (flagged p).trans (moved _)
    · exact moved p
    · exact moved p
  all_goals
    split
    · exact flagged p
    · exact refl p
    · exact refl p

theorem rewriteEdge (e : Nat) (g : Edge → Edge) (p : Part) : p.Keeps (p.rewriteEdge e g) := by
  unfold Part.rewriteEdge
  split
  · exact ite (mapPmon _ p rfl rfl) ((mapPmon _ p rfl rfl).trans (effectiveChange _ _ _))
  · exact refl p

theorem contact (e : Option Nat) (present : Bool) (p : Part) : p.Keeps (p.contact e present) := by
  unfold Part.contact
  split
  · split
    · split
      · exact rewriteEdge ..
      · exact refl p
    · exact refl p
  · exact refl p

theorem contacts (b : Nat) (east south : Bool) (p : Part) : p.Keeps (p.contacts b east south) :=
  (contact _ _ p).trans (contact _ _ _)

theorem clearCandidates (b : Nat) (p : Part) : p.Keeps (p.clearCandidates b) := by
  have clear (e : Option Nat) (p : Part) : p.Keeps (match e with
      | some e => p.mapPmon (·.modifyEdge e fun x => { x with candidate := none })
      | none => p) := by
    split
    · exact mapPmon _ p rfl rfl
    · exact refl p
  exact (clear _ p).trans (clear _ _)

theorem applyOverride (x : Nat × Nat) (p : Part) : p.Keeps (p.applyOverride x) := by
  unfold Part.applyOverride
  split
  · exact rewriteEdge ..
  · exact refl p

theorem applyOverrides (xs : List (Nat × Nat)) (p : Part) : p.Keeps (p.applyOverrides xs).1 := by
  induction xs generalizing p with
  | nil => exact refl p
  | cons x xs ih =>
    unfold Part.applyOverrides
    split
    · exact refl p
    · exact (applyOverride x p).trans (ih _)

theorem quietExpiry (p : Part) : p.Keeps p.quietExpiry := ite ((mapPmon _ p rfl rfl).trans (notice _)) (refl p)

theorem rolesChanged (p : Part) : p.Keeps p.rolesChanged := (mapPmon _ p rfl rfl).trans (notice _)

/-! Of the completion of a solve. -/

theorem retire (tag : Nat) (p : Part) : p.Keeps (p.retire tag) := by
  unfold Part.retire
  split
  · exact ite (freeZone tag p) (mapZt _ p)
  · exact refl p

theorem commit (plan : Plan) (edges : List EdgeState) (p : Part) : p.Keeps (p.commit plan edges) := by
  unfold Part.commit
  dsimp only
  refine Keeps.trans ?_ (ite (raise _ _) (refl _))
  refine Keeps.trans ?_ (raise _ _)
  refine Keeps.trans ?_ (mapRsq _ _)
  refine Keeps.trans ?_ (mapPmon _ _ rfl rfl)
  refine Keeps.trans ?_ (mapZt _ _)
  refine Keeps.trans ?_ (setCounts _)
  refine Keeps.trans ?_ (mapNodes _ _)
  have written (zt : Zt) : p.Keeps { p with zt := zt } := of_blocks rfl rfl rfl rfl rfl rfl rfl rfl rfl
  exact (written _).trans (foldl (fun p t => retire t p) plan.retiring _)

theorem handOff (pacing : Pacing) (p : Part) : p.Keeps (p.handOff pacing) := ite (returnToIdle p) (startCutover _ _ p)

theorem discardSolve (p : Part) : p.Keeps p.discardSolve := by
  unfold Part.discardSolve
  dsimp only
  have reported := (mapRsq (fun r => { r with seq := .idle, snapshot := none }) p).trans (raise .solveDiscarded _)
  split
  · exact reported.trans (startSolve _)
  · exact reported.trans (decideAtIdle _)
  · exact reported.trans (decideAtIdle _)

/-! Of the outcomes of a poll or a drive. -/

theorem becameSilent (b : Nat) (p : Part) : p.Keeps (p.becameSilent b) := (clearCandidates b p).trans (silentVisit b _)

theorem failed (b : Nat) (cause : FailureCause) (p : Part) : p.Keeps (p.failed b cause) := by
  unfold Part.failed
  split
  · split
    · exact ite (modifyNode _ _ p) (((modifyNode _ _ p).trans (raise _ _)).trans (becameSilent _ _))
    · exact modifyNode _ _ p
  · exact refl p

theorem comeBack (b : Nat) (p : Part) : p.Keeps (p.comeBack b) := by
  unfold Part.comeBack
  split
  case h_1 r node =>
    split
    · have joined := joinPending (b := b) (p := ((p.modifyNode b fun r =>
        { r with health := .ok, failures := 0, keyCounter := none }).raise (.nodeBack b))) (by simp [node])
      exact ((modifyNode _ _ p).trans (raise _ _)).trans joined
    · exact refl p
  case h_2 => exact refl p

theorem checkEcho (b : Nat) (echo : Pair) (p : Part) : p.Keeps (p.checkEcho b echo) := by
  unfold Part.checkEcho
  split
  case h_1 sent found =>
    have roomable : (p.fm.node? b).isSome = true := by
      cases node : p.fm.node? b with
      | none => rw [node] at found; cases found
      | some _ => rfl
    exact ite ((raise _ p).trans (joinPending roomable)) (refl p)
  case h_2 => exact refl p

theorem tellLighting (b : Nat) (o : Bool) (key : Option Key) (p : Part) : p.Keeps (p.tellLighting b o key) := by
  unfold Part.tellLighting
  split
  · dsimp only
    have flagged : p.Keeps (match p.fm.node? b with
        | some r => p.occupiedFlag r.tag o
        | none => p) := by
      split
      · exact occupiedFlag ..
      · exact refl p
    split
    · exact flagged.trans (keypadEvent _ _ _)
    · exact flagged
  · exact refl p
  · exact refl p

theorem validPoll (b : Nat) (reply : PollReply) (p : Part) : p.Keeps (p.validPoll b reply) := by
  unfold Part.validPoll
  exact (((((comeBack b p).trans (modifyNode _ _ _)).trans (checkEcho _ _ _)).trans (contacts _ _ _ _)).trans
    (tellLighting _ _ _ _)).trans (vacantVisit _ _ _)

end Part.Keeps

end Sys2Proof.Machine

/-!
One step said once: every command's effect on the part, the requests as the frames that they are the arrival of, what the handling of
a request can do, and the packaging of an invariant that every effect keeps.
-/
namespace Sys2Proof.Machine

/-! ### The effect of a command -/

/-- The effect of a command that is no request. -/
def Part.eventEffect (p : Part) : Instr → Part
  | .coldRestart => p.coldRestart
  | .frameDiscard _ => p.hunt
  | .frameGap => p.gap
  | .frameSent => p.frameSent
  | .receptionEnd => p.endReception
  | .idleHoldEnd => p.endHold
  | .quietTimerExpiry => p.quietExpiry
  | .solveCompletion => p.completeSolve.choose
  | .stepTimerExpiry => p.stepExpiry.choose
  | .deadlineExpiry => p.deadlineExpiry.choose
  | .vacancyTimerExpiry tag => (p.vacancyExpiry tag).choose
  | .fadeTick => p.fadeTick
  | .allocationIntervalExpiry => if p.afa.timer.mayExpire p.fm.clock then p.allocate.choose else p
  | .floorClockTick => p.mapFm fun f => { f with clock := f.clock + 1 }
  | .frameByteReceived data stopLow => p.receiveByte data stopLow
  | .cbRequestSent => p.openReception
  | .cbReplyCharacter data mark stopLow => p.receiveCharacter ⟨data, mark, stopLow⟩
  | _ => p

/-- The effect of any command: a request's is that of its frame (R167). -/
def Part.effect (p : Part) (c : Instr) : Part :=
  match c.request? with
  | some (kind, number, body) => p.takeFrame kind number body
  | none => p.eventEffect c

theorem exec_request {c : Instr} {kind number : Byte} {body : List Byte} (h : c.request? = some (kind, number, body)) (s : State) :
    exec c s = .next { s with part := s.part.takeFrame kind number body } := by
  cases c <;> simp only [Instr.request?, Option.some.injEq, Prod.mk.injEq, reduceCtorEq] at h <;> obtain ⟨rfl, rfl, rfl⟩ := h <;> rfl

theorem exec_event {c : Instr} (h : c.request? = none) (s : State) : exec c s = .next { s with part := s.part.eventEffect c } := by
  cases c <;> cases h <;> rfl

theorem exec_eq (c : Instr) (s : State) : exec c s = .next { s with part := s.part.effect c } := by
  unfold Part.effect
  split
  case h_1 kind number body h => exact exec_request h s
  case h_2 h => exact exec_event h s

/-- An invariant that every command's effect keeps is kept by every step. -/
theorem step_keeps {I : Part → Prop} (keeps : ∀ (c : Instr) (p : Part), I p → I (p.effect c)) (s t : State) (h : I s.part)
    (runs : step s = .next t) : I t.part := by
  unfold step at runs
  split at runs
  · cases runs
    exact h
  · rw [exec_eq] at runs
    cases runs
    exact keeps _ _ h

/-! ### What the handling of a request can do -/

/-- R169: the statuses of a reply to a request that has taken effect. -/
def Status.takes : Status → Bool
  | .done | .accepted | .deferred | .partlyDone => true
  | .busy | .notNow | .notReady | .badForm | .outOfRange | .noSuch | .full | .overlap | .unknownKind => false

/-- What a request that is not refused does to the part, each with the checks that its handling has passed. -/
inductive RequestEffect (p : Part) : Part → Prop
  | reads : RequestEffect p p
  | draws : RequestEffect p p.draw
  | setupFloor (g : Grid) (bitmap : List Byte) (considered : p.fm.state = .unconfigured ∨ p.rsq.seq = .idle)
      (valid : setupFieldFault g bitmap = none) : RequestEffect p (p.setupFloor g bitmap).kickBus
  | takeRoles (rl : Nat) (bays : List Nat) (floor : p.fm.state ≠ .unconfigured) (steady : p.rsq.seq ≠ .solving)
      (valid : p.fm.rolesFault rl bays = none) : RequestEffect p (p.takeRoles rl (spineOf bays))
  | setAuto (auto : Bool) (qt : Nat) : RequestEffect p (p.setAuto auto qt)
  | startSolve (running : p.fm.state = .running) (idle : p.rsq.seq = .idle) : RequestEffect p p.startSolve
  | askSolve (running : p.fm.state = .running) (cutting : p.rsq.seq = .cutting) :
      RequestEffect p (p.mapRsq fun r => { r with requested := true })
  | setPacing (mode : Pacing) (interval limit : Nat) : RequestEffect p (p.setPacing mode interval limit)
  | hasten (cutting : p.rsq.seq = .cutting) : RequestEffect p (p.cutRemaining .hasten)
  | setSupply (budget interval : Nat) (floor : p.fm.state ≠ .unconfigured) : RequestEffect p (p.setSupply budget interval)
  | setZone (tag : Nat) (requested : Settings) (floor : p.fm.state ≠ .unconfigured) :
      RequestEffect p ((p.mapZt (·.modifyZone tag fun z => { z with settings := requested.clamped })).retargetZone tag)
  | overrides (entries : List (Nat × Nat)) (floor : p.fm.state ≠ .unconfigured) : RequestEffect p (p.applyOverrides entries).1
  | pins (pins : List Pin) (room : p.zt.pins.length ≤ 16 → pins.length ≤ 16) :
      RequestEffect p (p.mapZt fun t => { t with pins := pins })
  | mask (mask : List Bool) (eleven : mask.length = 11) : RequestEffect p (p.mapSlu fun u => { u with mask := mask })
  | owes (o : RestartOption) : RequestEffect p (p.mapSlu fun u => { u with restartOwed := some o })

/-- R177: a request is refused with the part as it was, takes effect with a reply, or waits for its exchange (R170). -/
inductive Handled (p : Part) : Part × Option Reply → Prop
  | refused (status : Status) (detail : Nat) (refuses : status.takes = false) : Handled p (p, some (.plain status detail))
  | taken (q : Part) (r : Reply) (effect : RequestEffect p q) (takes : r.status.takes = true) : Handled p (q, some r)
  | waits (bay : Nat) (raw : List Byte) (floor : p.fm.state ≠ .unconfigured) (roomable : (p.fm.node? bay).isSome = true) :
      Handled p ((p.mapCbm fun c => { c with passSlot := some ⟨bay, raw⟩ }).kickBus, none)

namespace Handled
variable {p : Part}

/-- A check that refuses leaves the part as it was; one that passes goes on. -/
theorem checked {refusal : Option Reply} {go : Part × Reply}
    (refuses : ∀ r, refusal = some r → ∃ status detail, r = .plain status detail ∧ status.takes = false)
    (passes : refusal = none → Handled p (go.1, some go.2)) :
    Handled p ((Machine.checked p refusal go).1, some (Machine.checked p refusal go).2) := by
  cases refusal with
  | none => exact passes rfl
  | some r =>
    obtain ⟨status, detail, rfl, h⟩ := refuses r rfl
    exact refused status detail h

theorem plain_of_ite {c : Prop} [Decidable c] {status : Status} {detail : Nat} (h : status.takes = false) (r : Reply)
    (eq : (if c then none else some (Reply.plain status detail)) = some r) :
    ∃ status detail, r = .plain status detail ∧ status.takes = false := by
  split at eq
  · cases eq
  · cases eq
    exact ⟨_, _, rfl, h⟩

theorem lengthIs_refuses (n : Nat) (body : List Byte) (r : Reply) (eq : lengthIs n body = some r) :
    ∃ status detail, r = .plain status detail ∧ status.takes = false := plain_of_ite rfl r eq

theorem configured_refuses (r : Reply) (eq : p.configured = some r) :
    ∃ status detail, r = .plain status detail ∧ status.takes = false := by
  unfold Part.configured at eq
  split at eq
  · cases eq
    exact ⟨_, _, rfl, rfl⟩
  · cases eq

theorem floor_of_configured (h : p.configured = none) : p.fm.state ≠ .unconfigured := by
  intro noFloor
  rw [Part.configured_of_unconfigured noFloor] at h
  cases h

theorem map_refuses {status : Status} (h : status.takes = false) (fault : Option Nat) (r : Reply)
    (eq : fault.map (.plain status) = some r) : ∃ status detail, r = .plain status detail ∧ status.takes = false := by
  cases fault with
  | none => cases eq
  | some d =>
    cases eq
    exact ⟨_, _, rfl, h⟩

/-- A kind whose only checks are its length and the floor. -/
theorem checked_form_floor {n : Nat} {body : List Byte} {go : Part × Reply}
    (passes : p.fm.state ≠ .unconfigured → Handled p (go.1, some go.2)) :
    Handled p (replying (fun p' => Machine.checked p' (lengthIs n body) (Machine.checked p' p'.configured go)) p) :=
  checked (lengthIs_refuses n body) fun _ => checked configured_refuses fun h => passes (floor_of_configured h)

theorem read (fields : List Byte) : Handled p (p, some (.done fields)) := taken p _ .reads rfl

variable (body : List Byte)

theorem identify : Handled p (replying (handleIdentify body) p) :=
  checked (lengthIs_refuses 0 body) fun _ => read _

theorem setupFloor : Handled p (replying (handleSetupFloor body) p) := by
  refine checked (lengthIs_refuses 29 body) fun _ => checked ?busy fun busy => checked (map_refuses rfl _) fun fault => ?taken
  case busy =>
    rw [p.setupBusy_eq]
    exact plain_of_ite rfl
  case taken =>
    refine taken _ _ (.setupFloor _ _ ?_ (by simpa using fault)) rfl
    rw [p.setupBusy_eq] at busy
    by_contra h
    rw [if_neg h] at busy
    cases busy

theorem setRoles : Handled p (replying (handleSetRoles body) p) := by
  refine checked (plain_of_ite rfl) fun _ => checked ?state fun state => checked (map_refuses rfl _) fun fault => ?taken
  case state =>
    intro r eq
    unfold Part.rolesState at eq
    split at eq <;> cases eq <;> exact ⟨_, _, rfl, rfl⟩
  case taken =>
    have passed : p.fm.state ≠ .unconfigured ∧ p.rsq.seq ≠ .solving := by
      unfold Part.rolesState at state
      split at state <;> simp_all
    exact taken _ _ (.takeRoles _ _ passed.1 passed.2 (by simpa using fault)) rfl

theorem setAuto : Handled p (replying (handleSetAuto body) p) :=
  checked (lengthIs_refuses 3 body) fun _ => checked (plain_of_ite rfl) fun _ => taken _ _ (.setAuto ..) rfl

theorem solve : Handled p (replying (handleSolve body) p) := by
  refine checked (lengthIs_refuses 0 body) fun _ => ?_
  split
  · exact refused _ _ rfl
  · exact refused _ _ rfl
  · next running =>
    split
    · next idle => exact taken _ _ (.startSolve running idle) rfl
    · exact refused _ _ rfl
    · next cutting => exact taken _ _ (.askSolve running cutting) rfl

theorem setPacing : Handled p (replying (handleSetPacing body) p) := by
  refine checked (lengthIs_refuses 4 body) fun _ => ?_
  split
  · exact refused _ _ rfl
  · exact taken _ _ (.setPacing ..) rfl

theorem hasten : Handled p (replying (handleHasten body) p) := by
  refine checked (lengthIs_refuses 0 body) fun _ => ?_
  split
  · next cutting => exact taken _ _ (.hasten cutting) rfl
  · exact refused _ _ rfl
  · exact refused _ _ rfl

theorem setSupply : Handled p (replying (handleSetSupply body) p) :=
  checked_form_floor fun floor => taken _ _ (.setSupply _ _ floor) rfl

theorem setZone : Handled p (replying (handleSetZone body) p) := by
  refine checked_form_floor fun floor => ?_
  dsimp only
  split
  · exact refused _ _ rfl
  · exact taken _ _ (.setZone _ _ floor) rfl

theorem readZone : Handled p (replying (handleReadZone body) p) := by
  refine checked_form_floor fun _ => ?_
  split
  · exact refused _ _ rfl
  · dsimp only
    split
    · exact taken _ _ .draws rfl
    · exact read _

theorem listZones : Handled p (replying (handleListZones body) p) := checked_form_floor fun _ => read _

theorem readBay : Handled p (replying (handleReadBay body) p) := by
  refine checked_form_floor fun _ => ?_
  split
  · exact refused _ _ rfl
  · exact read _

theorem readEdges : Handled p (replying (handleReadEdges body) p) :=
  checked_form_floor fun _ => checked (plain_of_ite rfl) fun _ => checked (plain_of_ite rfl) fun _ => read _

theorem readChanges : Handled p (replying (handleReadChanges body) p) := checked_form_floor fun _ => read _

theorem overrideEdges : Handled p (replying (handleOverrideEdges body) p) := by
  refine checked (plain_of_ite rfl) fun _ => checked configured_refuses fun h => ?_
  have effect := RequestEffect.overrides (p := p) (overrideEntries (body.drop 1)) (floor_of_configured h)
  dsimp only
  split
  · next q applied eq =>
    rw [eq] at effect
    exact taken _ _ effect rfl
  · next q applied cause eq =>
    rw [eq] at effect
    exact taken _ _ effect rfl

theorem pinKeypad : Handled p (replying (handlePinKeypad body) p) := by
  refine checked_form_floor fun _ => checked (plain_of_ite rfl) fun _ => checked (plain_of_ite rfl) fun _ => ?_
  split
  · exact taken _ _ (.pins (p.zt.pins.map _) (by simp)) rfl
  · split
    · exact refused _ _ rfl
    · next room =>
      refine taken _ _ (.pins (insertPin _ p.zt.pins) ?_) rfl
      rw [insertPin_eq_orderedInsert, List.orderedInsert_length]
      omega

theorem unpinKeypad : Handled p (replying (handleUnpinKeypad body) p) := by
  refine checked_form_floor fun _ => checked (plain_of_ite rfl) fun _ => ?_
  split
  · exact refused _ _ rfl
  · exact taken _ _ (.pins (p.zt.pins.filter _) ((List.length_filter_le ..).trans)) rfl

theorem passThrough : Handled p (handlePassThrough body p) := by
  unfold handlePassThrough
  split
  · next r fault =>
    unfold Part.passFault at fault
    split at fault
    · cases fault
      exact refused _ _ rfl
    · split at fault
      · cases fault
        exact refused _ _ rfl
      · split at fault
        · cases fault
        · cases fault
          exact refused _ _ rfl
  · next passes =>
    have checks : p.fm.state ≠ .unconfigured ∧ (p.fm.node? (fieldAt body 0)).isSome = true := by
      unfold Part.passFault at passes
      split_ifs at passes with _ floor roomable
      exact ⟨floor, roomable⟩
    exact waits _ _ checks.1 checks.2

theorem setReports : Handled p (replying (handleSetReports body) p) := by
  refine checked (lengthIs_refuses 11 body) fun len => checked (map_refuses rfl _) fun _ => ?_
  refine taken _ _ (.mask _ ?_) rfl
  rw [List.length_map]
  by_contra h
  rw [lengthIs_of_ne h] at len
  cases len

theorem restart : Handled p (replying (handleRestart body) p) := by
  refine checked (lengthIs_refuses 1 body) fun _ => ?_
  split
  · exact taken _ _ (.owes _) rfl
  · exact refused _ _ rfl

/-- Every kind's handling, that of the unknown kinds too (R167). -/
theorem handlerOf (kind : Byte) : Handled p (Machine.handlerOf kind body p) := by
  generalize eq : Machine.handlerOf kind body = handle
  unfold Machine.handlerOf at eq
  split at eq <;> subst eq
  · exact identify body
  · exact setupFloor body
  · exact setRoles body
  · exact setAuto body
  · exact solve body
  · exact setPacing body
  · exact hasten body
  · exact setSupply body
  · exact setZone body
  · exact readZone body
  · exact listZones body
  · exact readBay body
  · exact readEdges body
  · exact readChanges body
  · exact overrideEdges body
  · exact pinKeypad body
  · exact unpinKeypad body
  · exact passThrough body
  · exact setReports body
  · exact restart body
  · exact refused .unknownKind 0 rfl

end Handled

/-- Settles O1: by the two cases of the queue. -/
theorem stepRunsFrontCommand : Obligations.StepRunsFrontCommand := by
  unfold Obligations.StepRunsFrontCommand
  constructor
  · intro c rest s front
    rw [step, front]
  · intro s empty
    rw [step, empty]

/-- Settles O2: the effect of the command is the next part. -/
theorem everyCommandAnswersNext : Obligations.EveryCommandAnswersNext := by
  unfold Obligations.EveryCommandAnswersNext
  exact fun c s => ⟨s.part.effect c, exec_eq c s⟩

end Sys2Proof.Machine

/-!
The link's records agree after every step (R168, R170 to R172): the part of that agreement which each operation inside an event keeps,
what the transmitter's choice adds at the event's end, and the obligations that these make up.
-/
namespace Sys2Proof.Machine

/-! ### What holds before the transmitter's choice -/

/-- The agreement of the link's records, but for the transmitter that is idle only when nothing waits. -/
structure LinkSound (p : Part) : Prop where
  room : p.slu.queue.length ≤ 16
  eleven : p.slu.mask.length = 11
  free : p.slu.inFlight = none → p.slu.replySlot = none ∧ p.slu.restartOwed = none
  sent : ∀ f, p.slu.tx = .sending .reply f → p.slu.replySlot = some f
  waits : PassPending p.cbm → p.slu.inFlight ≠ none ∧ p.slu.replySlot = none

theorem LinkInv.sound {p : Part} (h : LinkInv p) : LinkSound p := by
  obtain ⟨room, eleven, free, sent, waits, -⟩ := h
  exact ⟨room, eleven, free, sent, waits⟩

/-- R171: the choice leaves the transmitter idle only when nothing waits, and sends the reply that is in the slot. -/
theorem LinkSound.choose {p : Part} (h : LinkSound p) : LinkInv p.choose := by
  obtain ⟨⟨asm, fl, owed, slot, ov, ovf, tx, q, mask, lost⟩, cbm, fm, pmon, rsq, zt, cut, afa, fresh⟩ := p
  obtain ⟨room, eleven, free, sent, waits⟩ := h
  simp only at room eleven free sent waits
  unfold LinkInv
  cases tx with
  | sending source f =>
    exact ⟨room, eleven, free, sent, waits, fun h => by cases h⟩
  | idle =>
    cases slot with
    | some r =>
      cases ov with
      | none => simp_all [Part.choose, Slu.choose, Slu.nextReply, Slu.begin, Part.mapSlu]
      | some o => cases ovf <;> simp_all [Part.choose, Slu.choose, Slu.nextReply, Slu.begin, Part.mapSlu]
    | none =>
      cases ov with
      | some o => simp_all [Part.choose, Slu.choose, Slu.nextReply, Slu.begin, Part.mapSlu]
      | none =>
        cases q with
        | nil => simp_all [Part.choose, Slu.choose, Slu.nextReply, Slu.beginReport, Part.mapSlu]
        | cons r rest =>
          have shorter : rest.length ≤ 16 := by simp at room; omega
          simp_all [Part.choose, Slu.choose, Slu.nextReply, Slu.beginReport, Slu.begin, Part.mapSlu]

/-- The operations inside an event raise reports and leave the pass-through where it is. -/
theorem LinkSound.keeps {p q : Part} (h : LinkSound p) (keeps : p.Keeps q) : LinkSound q := by
  obtain ⟨rs, slu⟩ := keeps.raised
  have waits : PassPending q.cbm → PassPending p.cbm := by
    rw [keeps.cbm]
    exact id
  have length := Slu.raiseAll_length rs p.fm.clock h.room
  rw [Slu.raiseAll_eq] at slu
  exact
    { room := by rwa [slu]
      eleven := by rw [slu]; exact h.eleven
      free := by rw [slu]; exact h.free
      sent := by rw [slu]; exact h.sent
      waits := fun pending => by rw [slu]; exact h.waits (waits pending) }

theorem LinkSound.of_same {p q : Part} (h : LinkSound p) (slu : q.slu = p.slu) (waits : PassPending q.cbm → PassPending p.cbm) :
    LinkSound q where
  room := by rw [slu]; exact h.room
  eleven := by rw [slu]; exact h.eleven
  free := by rw [slu]; exact h.free
  sent := by rw [slu]; exact h.sent
  waits pending := by rw [slu]; exact h.waits (waits pending)

/-- An event that leaves the link alone and puts no pass-through on the bus. -/
theorem LinkInv.of_same {p q : Part} (h : LinkInv p) (slu : q.slu = p.slu) (waits : PassPending q.cbm → PassPending p.cbm) :
    LinkInv q := by
  obtain ⟨room, eleven, free, sent, wait, idle⟩ := h
  rw [LinkInv, slu]
  exact ⟨room, eleven, free, sent, wait ∘ waits, idle⟩

/-! ### The arbiter's grants and the pass-through -/

@[simp] theorem Part.grantPoll_bus (b : Nat) (p : Part) : (p.grantPoll b).cbm.bus = .sending (.poll b) false := rfl

@[simp] theorem Part.grantDrive_bus (b : Nat) (d : Pair) (p : Part) : (p.grantDrive b d).cbm.bus = .sending (.drive b d) false := rfl

/-- A pass-through that is not on the bus waits in the slot. -/
theorem PassPending.slot {c c' : Cbm} (h : PassPending c') (same : c'.passSlot = c.passSlot)
    (notSent : ∀ b body, c'.bus ≠ .sending (.pass b body) false)
    (notHeard : ∀ b body chars, c'.bus ≠ .receiving (.pass b body) false chars) : c.passSlot ≠ none := by
  rcases h with slot | ⟨b, body, eq⟩ | ⟨b, body, chars, eq⟩
  · rwa [same] at slot
  · exact absurd eq (notSent b body)
  · exact absurd eq (notHeard b body chars)

/-- R10, R40: what a restart or a setup voids is no pass-through that will be answered. -/
theorem PassPending.slot_of_voided {c c' : Cbm} {bus : Bus} (h : PassPending c') (same : c'.passSlot = c.passSlot)
    (voided : c'.bus = bus.voided) : c.passSlot ≠ none := by
  refine h.slot same ?_ ?_ <;> intros <;> rw [voided] <;> cases bus <;> simp [Bus.voided]

theorem Part.pollOrHold_waits {p : Part} (h : PassPending p.pollOrHold.cbm) : p.cbm.passSlot ≠ none := by
  unfold pollOrHold at h
  split at h
  · exact h.slot rfl (by simp) (by simp)
  · exact h.slot rfl (by simp) (by simp)

theorem Part.grantPolling_waits {p : Part} (h : PassPending p.grantPolling.cbm) : p.cbm.passSlot ≠ none := by
  unfold grantPolling at h
  dsimp only at h
  split at h
  · exact h.slot rfl (by simp) (by simp)
  · simpa [completeRound] using Part.pollOrHold_waits h

/-- R36: a grant puts a pass-through on the bus only when one waits in the slot. -/
theorem Part.grantWith_waits {poll : Part → Part} (polls : ∀ p : Part, PassPending (poll p).cbm → p.cbm.passSlot ≠ none) {p : Part}
    (h : PassPending (p.grantWith poll).cbm) : p.cbm.passSlot ≠ none := by
  cases slot : p.cbm.passSlot with
  | some x => exact Option.some_ne_none x
  | none =>
    exfalso
    have drives (b : Nat) (d : Pair) : ¬ PassPending (p.grantDrive b d).cbm := fun h =>
      h.slot rfl (by simp) (by simp) slot
    unfold grantWith at h
    split at h
    · exact h.slot rfl (by simp) (by simp) slot
    all_goals
      rw [slot] at h
      dsimp only at h
      split at h
      · split at h
        · exact drives _ _ h
        · exact polls p h slot
      · exact polls p h slot

theorem Part.arbitrate_waits {p : Part} (h : PassPending p.arbitrate.cbm) : p.cbm.passSlot ≠ none :=
  grantWith_waits (fun _ => grantPolling_waits) h

theorem Part.arbitrateAfterHold_waits {p : Part} (h : PassPending p.arbitrateAfterHold.cbm) : p.cbm.passSlot ≠ none :=
  grantWith_waits (fun _ h => by simpa using pollOrHold_waits h) h

theorem Part.kickBus_waits {p : Part} (h : PassPending p.kickBus.cbm) : PassPending p.cbm := by
  unfold kickBus at h
  split at h
  · exact .inl (arbitrate_waits h)
  · exact h
  · exact h
  · exact h

@[simp] theorem Part.kickBus_slu (p : Part) : p.kickBus.slu = p.slu := by
  unfold kickBus
  split <;> simp

@[simp] theorem Part.arbitrateAfterHold_slu (p : Part) : p.arbitrateAfterHold.slu = p.slu := by
  obtain ⟨bus, grant⟩ | ⟨b, pair, grant⟩ | grant := p.grantWith_cases _ <;> rw [arbitrateAfterHold, grant] <;> simp

theorem LinkSound.arbitrate {p : Part} (h : LinkSound p) : LinkSound p.arbitrate :=
  h.of_same (by simp) fun waits => .inl (Part.arbitrate_waits waits)

theorem LinkSound.kickBus {p : Part} (h : LinkSound p) : LinkSound p.kickBus := h.of_same (by simp) Part.kickBus_waits

/-! ### Requests -/

/-- While a request is being handled it is in flight without a reply, and no pass-through waits. -/
structure LinkTaken (p : Part) : Prop extends LinkSound p where
  taken : p.slu.inFlight ≠ none
  noReply : p.slu.replySlot = none
  noPass : ¬ PassPending p.cbm

theorem LinkTaken.keeps {p q : Part} (h : LinkTaken p) (keeps : p.Keeps q) : LinkTaken q := by
  obtain ⟨rs, slu⟩ := keeps.raised
  rw [Slu.raiseAll_eq] at slu
  refine ⟨h.toLinkSound.keeps keeps, ?_, ?_, ?_⟩
  · rw [slu]; exact h.taken
  · rw [slu]; exact h.noReply
  · rw [keeps.cbm]; exact h.noPass

theorem LinkTaken.of_same {p q : Part} (h : LinkTaken p) (slu : q.slu = p.slu) (waits : PassPending q.cbm → PassPending p.cbm) :
    LinkTaken q where
  toLinkSound := h.toLinkSound.of_same slu waits
  taken := by rw [slu]; exact h.taken
  noReply := by rw [slu]; exact h.noReply
  noPass := h.noPass ∘ waits

theorem LinkTaken.setupFloor {p : Part} (h : LinkTaken p) (g : Grid) (bitmap : List Byte) : LinkTaken (p.setupFloor g bitmap) := by
  refine h.of_same rfl fun waits => ?_
  exact .inl (waits.slot_of_voided rfl rfl)

theorem Part.takeRoles_eq (rl : Nat) (spine : List Nat) (p : Part) :
    p.takeRoles rl spine = if p.fm.state = .running then (p.mapFm fun f => { f with rl := rl, spine := spine }).rolesChanged
      else p.mapFm fun f => { f with rl := rl, spine := spine } := by
  unfold takeRoles
  cases state : p.fm.state <;> simp [state]

/-- What a request does to the part leaves it in flight without a reply, and no pass-through waiting. -/
theorem LinkTaken.effect {p q : Part} (h : LinkTaken p) (effect : RequestEffect p q) : LinkTaken q := by
  cases effect with
  | reads => exact h
  | draws => exact h.keeps (.draw p)
  | setupFloor g bitmap => exact (h.setupFloor g bitmap).of_same (by simp) Part.kickBus_waits
  | takeRoles rl bays =>
    have written : LinkTaken (p.mapFm fun f => { f with rl := rl, spine := spineOf bays }) := h.of_same rfl id
    rw [Part.takeRoles_eq]
    split
    · exact written.keeps (.rolesChanged _)
    · exact written
  | setAuto auto qt =>
    have written : LinkTaken (p.mapPmon fun m => { m with auto := auto, qt := clamp 5 600 qt }) := h.of_same rfl id
    unfold Part.setAuto
    dsimp only
    split
    · exact written.keeps (.notice _)
    · exact written
  | startSolve => exact h.keeps (.startSolve p)
  | askSolve => exact h.keeps (.mapRsq _ p)
  | setPacing mode interval limit =>
    have written : LinkTaken (p.mapCut fun c => { c with mode := mode, interval := clamp 1 60 interval, limit := clamp 60 7200 limit }) :=
      h.of_same rfl id
    unfold Part.setPacing
    dsimp only
    split
    · exact written.keeps (.repace _)
    · exact written
    · exact written
  | hasten => exact h.keeps (.cutRemaining _ p)
  | setSupply budget interval =>
    have written : LinkTaken (p.mapAfa fun a =>
        { a with supply := some (clamp p.fm.m p.fm.fmax budget), ai := clamp 10 300 interval }) := h.of_same rfl id
    unfold Part.setSupply
    dsimp only
    split
    · exact written.keeps (.allocate _)
    · exact written
    · exact written
  | setZone tag requested => exact h.keeps ((Part.Keeps.mapZt _ p).trans (.retargetZone _ _))
  | overrides entries => exact h.keeps (.applyOverrides entries p)
  | pins pins => exact h.keeps (.mapZt _ p)
  | mask mask eleven => exact { h with eleven := eleven }
  | owes o => exact { h with free := fun none => absurd none h.taken }

/-- R170: the reply placed is that of the request in flight. -/
theorem LinkTaken.placeReply {p : Part} (h : LinkTaken p) (r : Reply) : LinkSound (p.placeReply r) := by
  obtain ⟨q, inFlight⟩ := Option.ne_none_iff_exists'.1 h.taken
  have placed : (p.placeReply r).slu =
      { p.slu with replySlot := some (r.frame q.kind q.number), overlapFirst := p.slu.overlapSlot.isSome } := by
    simp only [Part.placeReply, Slu.placeReply, Part.mapSlu_slu, inFlight]
  exact
    { room := by rw [placed]; exact h.room
      eleven := by rw [placed]; exact h.eleven
      free := by rw [placed]; exact fun none => absurd none h.taken
      sent := by
        rw [placed]
        intro f sending
        have := h.sent f sending
        rw [h.noReply] at this
        cases this
      waits := fun pending => absurd pending h.noPass }

/-- R168, R170: a request taken or met by one in flight. -/
theorem LinkInv.takeRequest {p : Part} (h : LinkInv p) (kind number : Byte) (handle : Part → Part × Option Reply)
    (handled : ∀ q, Handled q (handle q)) : LinkInv (p.takeRequest kind number handle) := by
  have sound := h.sound
  have hunts : LinkSound (p.mapSlu fun u => { u with assembler := .hunting }) := { sound with }
  unfold Part.takeRequest
  dsimp only
  split
  case h_1 other inFlight =>
    have offered : LinkSound ((p.mapSlu fun u => { u with assembler := .hunting }).mapSlu (·.offerOverlap kind number)) := by
      cases full : p.slu.overlapSlot with
      | none => simp only [Part.mapSlu, Slu.offerOverlap, full]; exact { sound with }
      | some o => simp only [Part.mapSlu, Slu.offerOverlap, full]; exact { sound with }
    exact offered.choose
  case h_2 none =>
    obtain ⟨noReply, noRestart⟩ := sound.free none
    have noPass : ¬ PassPending p.cbm := fun pending => (sound.waits pending).1 none
    have taken : LinkTaken ((p.mapSlu fun u => { u with assembler := .hunting }).mapSlu fun u =>
        { u with inFlight := some ⟨kind, number⟩ }) :=
      { sound with
        taken := Option.some_ne_none _
        free := fun h => by cases h
        noReply := noReply
        noPass := noPass
        waits := fun pending => absurd pending noPass }
    have result := handled ((p.mapSlu fun u => { u with assembler := .hunting }).mapSlu fun u =>
      { u with inFlight := some ⟨kind, number⟩ })
    split
    case h_1 q r eq =>
      rw [eq] at result
      cases result with
      | refused status detail => exact (taken.placeReply _).choose
      | taken _ _ effect => exact ((taken.effect effect).placeReply _).choose
    case h_2 q eq =>
      rw [eq] at result
      cases result with
      | waits bay raw =>
        refine LinkSound.choose (LinkSound.kickBus ?_)
        exact { taken with waits := fun _ => ⟨taken.taken, taken.noReply⟩ }

/-! ### The cell bus and the restarts -/

/-- R20, R38: the outcome of a transaction. A pass-through's reply is placed on a link that has none. -/
theorem LinkSound.applyOutcome {p : Part} (h : LinkSound p) (t : Transaction) (void : Bool) (chars : List RxChar)
    (bus : p.cbm.bus = .receiving t void chars) (valid : void = false) :
    LinkSound ((p.mapCbm fun c => { c with bus := .quiet }).applyOutcome t chars) := by
  subst valid
  have quiet : LinkSound (p.mapCbm fun c => { c with bus := .quiet }) :=
    h.of_same rfl fun waits => .inl (waits.slot rfl (by simp) (by simp))
  cases t with
  | poll b =>
    simp only [Part.applyOutcome]
    split
    · exact quiet.keeps (.failed ..)
    · exact quiet.keeps (.validPoll ..)
  | drive b sent =>
    simp only [Part.applyOutcome]
    split
    · exact quiet.keeps (.failed ..)
    · refine quiet.of_same ?_ ?_ <;> unfold Part.validDrive <;> dsimp only <;> split
      · split <;> rfl
      · rfl
      · split <;> exact id
      · exact id
  | pass b body =>
    obtain ⟨taken, noReply⟩ := h.waits (.inr (.inr ⟨b, body, chars, bus⟩))
    have noPass : ¬ PassPending { p.cbm with passSlot := none, bus := .quiet } := by simp [PassPending]
    have ended : LinkTaken (p.mapCbm fun c => { c with passSlot := none, bus := .quiet }) :=
      { h with taken := taken, noReply := noReply, noPass := noPass, waits := fun waits => absurd waits noPass }
    exact ended.placeReply _

theorem LinkInv.endReception {p : Part} (h : LinkInv p) : LinkInv p.endReception := by
  unfold Part.endReception
  split
  case h_1 t void chars bus =>
    cases void with
    | true =>
      have quiet : LinkSound (p.mapCbm fun c => { c with bus := .quiet }) :=
        h.sound.of_same rfl fun waits => .inl (waits.slot rfl (by simp) (by simp))
      exact quiet.arbitrate.choose
    | false => exact (h.sound.applyOutcome t false chars bus rfl).arbitrate.choose
  all_goals exact h

theorem LinkInv.receiveCharacter {p : Part} (h : LinkInv p) (c : RxChar) : LinkInv (p.receiveCharacter c) := by
  unfold Part.receiveCharacter
  split
  case h_1 t void chars bus =>
    have recorded : LinkInv (p.mapCbm fun c' => { c' with bus := .receiving t void (chars ++ [c]) }) := by
      refine h.of_same rfl fun waits => ?_
      rcases waits with slot | ⟨b, body, eq⟩ | ⟨b, body, chars', eq⟩
      · exact .inl slot
      · cases eq
      · cases eq
        exact .inr (.inr ⟨b, body, chars, bus⟩)
    dsimp only
    split
    · exact recorded.endReception
    · exact recorded
  all_goals exact h

theorem LinkInv.openReception {p : Part} (h : LinkInv p) : LinkInv p.openReception := by
  unfold Part.openReception
  split
  case h_1 t void bus =>
    refine h.of_same rfl fun waits => ?_
    rcases waits with slot | ⟨b, body, eq⟩ | ⟨b, body, chars, eq⟩
    · exact .inl slot
    · cases eq
    · cases eq
      exact .inr (.inl ⟨b, body, bus⟩)
  all_goals exact h

theorem LinkInv.endHold {p : Part} (h : LinkInv p) : LinkInv p.endHold := by
  unfold Part.endHold
  split
  · exact h.of_same (by simp) fun waits => .inl (Part.arbitrate_waits waits)
  · exact h.of_same (by simp) fun waits => .inl (by simpa [Part.completeRound] using Part.arbitrateAfterHold_waits waits)
  all_goals exact h

theorem LinkSound.warmRestart {p : Part} (h : LinkSound p) : LinkSound p.warmRestart := by
  unfold Part.warmRestart
  dsimp only
  refine LinkSound.keeps ?_ (.decideAtIdle _)
  have restarted (fm : FloorModel) (pmon : Pmon) (rsq : Rsq) (zt : Zt) (cut : Cut) (afa : Afa) (fresh : Nat) :
      LinkSound ⟨p.slu.restarted, p.cbm.restarted p.fm.roomable, fm, pmon, rsq, zt, cut, afa, fresh⟩ :=
    { h with
      room := Nat.zero_le _
      waits := fun waits => absurd rfl (waits.slot_of_voided (c := .cold) rfl rfl) }
  unfold Part.retargetRunning
  split
  · exact (restarted ..).keeps (.retargetAll _)
  · exact restarted ..
  · exact restarted ..

theorem LinkInv.cold (n : Nat) : LinkInv { Part.cold with fresh := n } := by
  unfold LinkInv
  simp [Part.cold, Slu.cold, Cbm.cold, PassPending]

theorem LinkSound.endReply {p : Part} (h : LinkSound p) (f : Frame) (sending : p.slu.tx = .sending .reply f) : LinkSound p.endReply := by
  have noPass : ¬ PassPending p.cbm := fun waits => by
    have := (h.waits waits).2
    rw [h.sent f sending] at this
    cases this
  have ended : LinkSound (p.mapSlu fun u => { u with tx := .idle, replySlot := none, inFlight := none, restartOwed := none }) :=
    { h with
      free := fun _ => ⟨rfl, rfl⟩
      sent := fun _ h => by cases h
      waits := fun waits => absurd waits noPass }
  unfold Part.endReply
  dsimp only
  split
  · exact ended.warmRestart
  · exact (LinkInv.cold _).sound
  · exact ended

theorem LinkInv.frameSent {p : Part} (h : LinkInv p) : LinkInv p.frameSent := by
  have freed : LinkSound (p.mapSlu fun u => { u with tx := .idle }) := { h.sound with sent := fun _ h => by cases h }
  unfold Part.frameSent
  split
  · exact h
  · next f sending => exact (h.sound.endReply f sending).choose
  · exact freed.choose
  · exact freed.choose

/-! ### The assembler -/

theorem LinkInv.assemble {p : Part} (h : LinkInv p) (a : Assembler) : LinkInv (p.mapSlu fun u => { u with assembler := a }) := h

theorem LinkInv.takeFrame {p : Part} (h : LinkInv p) (kind number : Byte) (body : List Byte) : LinkInv (p.takeFrame kind number body) := by
  unfold Part.takeFrame
  split
  · exact h.assemble _
  · exact h.takeRequest kind number _ fun _ => Handled.handlerOf body kind

theorem LinkInv.receiveByte {p : Part} (h : LinkInv p) (data : Byte) (stopLow : Bool) : LinkInv (p.receiveByte data stopLow) := by
  unfold Part.receiveByte Part.completeFrame
  dsimp only
  (repeat' split) <;> first
    | exact h
    | exact h.assemble _
    | exact h.takeFrame ..

/-! ### The timers and the solve -/

theorem LinkSound.completeSolve {p : Part} (h : LinkSound p) : LinkSound p.completeSolve := by
  unfold Part.completeSolve
  split
  · split
    · exact h.keeps (.discardSolve p)
    · dsimp only
      split
      · have running (q : Part) (h : LinkSound q) : LinkSound (q.mapFm fun f => { f with state := .running }) := { h with }
        refine LinkSound.keeps (running _ ?_) (.raise _ _)
        exact h.keeps ((((Part.Keeps.commit _ _ p).trans (.handOff _ _)).trans (.lightFloor _)).trans (.allocate _)) |>.keeps (.joinAll _)
      · exact h.keeps ((Part.Keeps.commit _ _ p).trans (.handOff _ _))
  · exact h

@[simp] theorem Part.quietExpiry_slu (p : Part) : p.quietExpiry.slu = p.slu := by
  unfold quietExpiry
  split <;> simp

@[simp] theorem Part.fadeTick_slu (p : Part) : p.fadeTick.slu = p.slu := by
  unfold fadeTick
  dsimp only
  split <;> simp

/-- An event that leaves the link alone, and the cell bus but for the drive-pending set. -/
theorem LinkInv.keeps_of_same {p q : Part} (h : LinkInv p) (slu : q.slu = p.slu) (keeps : p.Keeps q) : LinkInv q :=
  h.of_same slu (by rw [keeps.cbm]; exact id)

/-- Every command's effect. -/
theorem LinkInv.effect (c : Instr) (p : Part) (h : LinkInv p) : LinkInv (p.effect c) := by
  unfold Part.effect
  split
  · exact h.takeFrame ..
  · cases c with
    | coldRestart => exact .cold _
    | frameDiscard => exact h.assemble _
    | frameGap =>
      simp only [Part.eventEffect, Part.gap]
      split
      · exact h.assemble _
      · exact h
    | frameSent => exact h.frameSent
    | receptionEnd => exact h.endReception
    | idleHoldEnd => exact h.endHold
    | quietTimerExpiry => exact h.keeps_of_same p.quietExpiry_slu (.quietExpiry p)
    | solveCompletion => exact h.sound.completeSolve.choose
    | stepTimerExpiry => exact (h.sound.keeps (.stepExpiry p)).choose
    | deadlineExpiry => exact (h.sound.keeps (.deadlineExpiry p)).choose
    | vacancyTimerExpiry tag => exact (h.sound.keeps (.vacancyExpiry tag p)).choose
    | fadeTick => exact h.keeps_of_same p.fadeTick_slu (.fadeTick p)
    | allocationIntervalExpiry =>
      simp only [Part.eventEffect]
      split
      · exact (h.sound.keeps (.allocate p)).choose
      · exact h
    | floorClockTick => exact h
    | frameByteReceived => exact h.receiveByte ..
    | cbRequestSent => exact h.openReception
    | cbReplyCharacter => exact h.receiveCharacter _
    | _ => exact h

/-- Settles O57: every command's effect keeps the agreement, by `LinkSound` up to the transmitter's choice and by
`LinkSound.choose` there. -/
theorem stepKeepsLinkInv : Obligations.StepKeepsLinkInv := by
  unfold Obligations.StepKeepsLinkInv
  exact step_keeps LinkInv.effect

end Sys2Proof.Machine

/-!
The frame assembler and the taking of a frame (R165 to R168): what each byte does to the assembler, why the bytes of a good frame do
what its request does, and the requests that are met by one in flight or whose kind is unknown.
-/
namespace Sys2Proof.Machine

/-! ### The assembler (R166) -/

/-- The part with another assembler. -/
def Part.assemble (a : Assembler) (p : Part) : Part := p.mapSlu fun u => { u with assembler := a }

theorem Part.assemble_of_same {p : Part} {a : Assembler} (h : p.slu.assembler = a) : p.assemble a = p := by
  subst h
  rfl

theorem exec_byte (data : Byte) (low : Bool) (s : State) :
    exec (.frameByteReceived data low) s = .next { s with part := s.part.receiveByte data low } := rfl

section
variable {p : Part} {data : Byte}

theorem Part.receiveByte_hunting (low : Bool) (asm : p.slu.assembler = .hunting) :
    p.receiveByte data low = if data = 0xC3 ∧ low = false then p.assemble (.collecting []) else p := by
  simp only [receiveByte, asm, assemble]

theorem Part.receiveByte_framing {got : List Byte} (asm : p.slu.assembler = .collecting got) :
    p.receiveByte data true = p.assemble .hunting := by
  simp only [receiveByte, asm, if_true, hunt, assemble]

theorem Part.receiveByte_len (asm : p.slu.assembler = .collecting []) :
    p.receiveByte data false = p.assemble (if 2 ≤ data.toNat ∧ data.toNat ≤ 198 then .collecting [data] else .hunting) := by
  simp only [receiveByte, asm, hunt, assemble, Bool.false_eq_true, if_false]
  split <;> rfl

theorem Part.receiveByte_collects {len : Byte} {got : List Byte} (asm : p.slu.assembler = .collecting (len :: got))
    (room : got.length < len.toNat) : p.receiveByte data false = p.assemble (.collecting (len :: got ++ [data])) := by
  have short : ¬ len.toNat + 2 ≤ (len :: got ++ [data]).length := by simp; omega
  simp only [receiveByte, asm, assemble, Bool.false_eq_true, if_false, if_neg short]

theorem Part.receiveByte_completes {len : Byte} {got : List Byte} (asm : p.slu.assembler = .collecting (len :: got))
    (full : len.toNat ≤ got.length) : p.receiveByte data false = p.completeFrame (len :: got ++ [data]) := by
  have enough : len.toNat + 2 ≤ (len :: got ++ [data]).length := by simp; omega
  simp only [receiveByte, asm, Bool.false_eq_true, if_false, if_pos enough]

end

theorem Part.completeFrame_eq (p : Part) (len kind number check : Byte) (body : List Byte) :
    p.completeFrame (len :: kind :: number :: body ++ [check]) =
      if byteSum (len :: kind :: number :: body ++ [check]) % 256 = 0 then p.takeFrame kind number body else p.hunt := by
  simp only [List.cons_append, completeFrame, List.dropLast_concat]

/-- Settles O4: each clause is the equation of `receiveByte` for its state of the assembler. -/
theorem assemblerHuntsAndCollects : Obligations.AssemblerHuntsAndCollects := by
  unfold Obligations.AssemblerHuntsAndCollects
  refine ⟨fun data low s asm => ?hunting, fun data got s asm => ?framing, fun data s asm => ?len,
    fun data len got s asm room => ?collects, fun data len kind number body s asm full bad => ?completes, fun s => ?gap,
    fun _ _ => rfl⟩
  case hunting =>
    rw [exec_byte, Part.receiveByte_hunting low asm]
    split <;> rfl
  case framing =>
    rw [exec_byte, Part.receiveByte_framing asm]
    rfl
  case len =>
    rw [exec_byte, Part.receiveByte_len asm]
    rfl
  case collects =>
    rw [exec_byte, Part.receiveByte_collects asm room]
    rfl
  case completes =>
    have full' : len.toNat ≤ (kind :: number :: body).length := by simp; omega
    rw [exec_byte, Part.receiveByte_completes asm full', Part.completeFrame_eq]
    rcases bad with sum | replyKind
    · rw [if_neg (by simpa only [byteSum] using sum)]
      rfl
    · rw [Part.takeFrame, if_pos replyKind, ite_self]
      rfl
  case gap =>
    cases asm : s.part.slu.assembler with
    | hunting =>
      have same : s.part.gap = s.part.assemble .hunting := by
        rw [Part.assemble_of_same asm]
        simp only [Part.gap, asm]
      exact congrArg (fun p => Host.Outcome.next { s with part := p }) same
    | collecting got =>
      have same : s.part.gap = s.part.assemble .hunting := by simp only [Part.gap, asm, Part.hunt, Part.assemble]
      exact congrArg (fun p => Host.Outcome.next { s with part := p }) same

/-! ### The bytes of a good frame (R165 to R167) -/

/-- The bytes after LEN, as many as it counts, are collected. -/
theorem feed_collects {len : Byte} {got : List Byte} (bs rest : List Byte) {s : State}
    (asm : s.part.slu.assembler = .collecting (len :: got)) (room : got.length + bs.length ≤ len.toNat) :
    feed (bs ++ rest) s = feed rest { s with part := s.part.assemble (.collecting (len :: got ++ bs)) } := by
  induction bs generalizing got s with
  | nil =>
    rw [List.append_nil, Part.assemble_of_same asm]
    rfl
  | cons b bs ih =>
    rw [List.length_cons] at room
    rw [List.cons_append, feed, exec_byte, Part.receiveByte_collects asm (by omega)]
    dsimp only
    have collected := ih (got := got ++ [b]) (s := { s with part := s.part.assemble (.collecting (len :: (got ++ [b]))) }) rfl
      (by simp only [List.length_append, List.length_cons, List.length_nil]; omega)
    refine collected.trans ?_
    simp [Part.assemble, Part.mapSlu]

/-- R165: a well-formed request's body fits a frame and its kind is none of the replies'. -/
theorem request_fits {c : Instr} {kind number : Byte} {body : List Byte} (request : c.request? = some (kind, number, body))
    (wellFormed : c.wellFormed = true) : body.length ≤ 196 ∧ ¬ 0x80 ≤ kind.toNat := by
  cases c <;> cases request
  case unknownKind =>
    simp only [Instr.wellFormed, unassignedKind, bodyFits, maxBody, Bool.and_eq_true, Bool.or_eq_true, beq_iff_eq,
      decide_eq_true_eq] at wellFormed
    obtain ⟨rfl | ⟨-, below⟩, fits⟩ := wellFormed
    · exact ⟨of_decide_eq_true fits, by decide⟩
    · exact ⟨of_decide_eq_true fits, by omega⟩
  all_goals exact ⟨of_decide_eq_true wellFormed, by decide⟩

/-- Settles O5: SYNC starts the collection, LEN and the bytes it counts are collected, and CHECK completes the frame, which is taken as
its request command is. -/
theorem frameBytesRunRequest : Obligations.FrameBytesRunRequest := by
  unfold Obligations.FrameBytesRunRequest
  intro c kind number body s request wellFormed hunting
  obtain ⟨fits, -⟩ := request_fits request wellFormed
  generalize frame : Frame.mk kind number body = f
  have lenEq : f.len.toNat = body.length + 2 := by
    subst frame
    simp only [Frame.len, byteOf, BitVec.toNat_ofNat]
    omega
  have content : f.content = f.len :: kind :: number :: body := by
    subst frame
    rfl
  have sum : byteSum (f.len :: kind :: number :: body ++ [checkByte (byteSum f.content)]) % 256 = 0 := by
    rw [← content]
    exact Laws.FrameSum.frame_sum f
  have len : 2 ≤ f.len.toNat ∧ f.len.toNat ≤ 198 := by omega
  rw [exec_request request, Frame.bytes, content]
  rw [feed, exec_byte, Part.receiveByte_hunting false hunting, if_pos ⟨rfl, rfl⟩]
  dsimp only [List.cons_append]
  rw [feed, exec_byte, Part.receiveByte_len rfl, if_pos len]
  dsimp only
  have collected := feed_collects (len := f.len) (got := []) (kind :: number :: body) [checkByte (byteSum f.content)]
    (s := { s with part := (s.part.assemble (.collecting [])).assemble (.collecting [f.len]) }) rfl
    (by simp only [List.length_cons, List.length_nil]; omega)
  rw [content] at collected sum
  rw [List.cons_append, List.cons_append] at collected
  rw [collected, feed, exec_byte, Part.receiveByte_completes (len := f.len) (got := kind :: number :: body) rfl
    (by simp only [List.length_cons]; omega), Part.completeFrame_eq, if_pos sum]
  rfl

/-! ### A request met by one in flight, and one of unknown kind -/

theorem Part.takeFrame_request {kind : Byte} (isRequest : ¬ 0x80 ≤ kind.toNat) (number : Byte) (body : List Byte) (p : Part) :
    p.takeFrame kind number body = p.takeRequest kind number (handlerOf kind body) := by
  rw [takeFrame, if_neg isRequest]

/-- R168: a request met by one in flight concerns the link alone. -/
theorem Part.takeRequest_met {kind number : Byte} {handle : Part → Part × Option Reply} {p : Part} {q : InFlight}
    (met : p.slu.inFlight = some q) :
    p.takeRequest kind number handle =
      { p with slu := (({ p.slu with assembler := .hunting } : Slu).offerOverlap kind number).choose } := by
  unfold takeRequest
  dsimp only
  split
  · rfl
  · next none => cases met.symm.trans none

/-- Settles O7: by the state of the transmitter and of the overlap slot. -/
theorem requestInFlightMeansOverlap : Obligations.RequestInFlightMeansOverlap := by
  unfold Obligations.RequestInFlightMeansOverlap
  intro c kind number body s q request wellFormed met idle
  obtain ⟨-, isRequest⟩ := request_fits request wellFormed
  refine ⟨_, exec_request request s, ?_⟩
  rw [Part.takeFrame_request isRequest, Part.takeRequest_met met]
  refine ⟨rfl, ?_⟩
  obtain ⟨⟨⟨asm, fl, owed, slot, ov, ovf, tx, queue, mask, lost⟩, cbm, fm, pmon, rsq, zt, cut, afa, fresh⟩, pending⟩ := s
  simp only at met idle
  subst met
  cases tx with
  | sending source f => cases ov <;> simp [Slu.offerOverlap, Slu.choose, Reply.plain, Reply.frame, Reply.body, Status.code, byteOf]
  | idle =>
    obtain ⟨rfl, rfl⟩ := idle rfl
    simp [Slu.offerOverlap, Slu.choose, Slu.nextReply, Slu.begin, Reply.plain, Reply.frame, Reply.body, Status.code, byteOf]

/-- A handling matters only at the part that the request finds. -/
theorem Part.takeRequest_congr {kind number : Byte} {handle handle' : Part → Part × Option Reply} {p : Part}
    (same : ∀ q : Part, q = { p with slu := { p.slu with assembler := .hunting, inFlight := some ⟨kind, number⟩ } } →
      handle q = handle' q) : p.takeRequest kind number handle = p.takeRequest kind number handle' := by
  have eq := same ((p.mapSlu fun u => { u with assembler := .hunting }).mapSlu fun u => { u with inFlight := some ⟨kind, number⟩ }) rfl
  unfold takeRequest
  dsimp only
  rw [eq]

/-- A request that is answered with nothing changed, of any handling. -/
theorem takeRequest_refused {kind number : Byte} {handle : Part → Part × Option Reply} {s : State} {status : Status} {detail : Nat}
    (free : s.part.slu.inFlight = none)
    (handled : ∀ p : Part, p = { s.part with slu := { s.part.slu with assembler := .hunting, inFlight := some ⟨kind, number⟩ } } →
      handle p = (p, some (.plain status detail))) :
    ∃ t, Host.Outcome.next (φ := Fault) (ρ := Refusal) { s with part := s.part.takeRequest kind number handle } = .next t
      ∧ AnswersOnly kind number status detail [] s t := by
  rw [Part.takeRequest_congr (handle' := replying fun p => (p, .plain status detail)) handled]
  exact takeRequest_answersOnly kind number _ s status detail [] free fun _ _ => rfl

/-- R167: the kinds that no request has. -/
theorem handlerOf_unassigned {kind : Byte} (unassigned : kind = 0 ∨ (0x15 ≤ kind.toNat ∧ kind.toNat ≤ 0x7F)) (body : List Byte)
    (p : Part) : handlerOf kind body p = (p, some (.plain .unknownKind 0)) := by
  have outside : kind.toNat = 0 ∨ 0x15 ≤ kind.toNat := by
    rcases unassigned with rfl | ⟨above, -⟩
    · exact .inl rfl
    · exact .inr above
  generalize eq : handlerOf kind body = handle
  unfold handlerOf at eq
  split at eq
  case h_21 => rw [← eq]
  all_goals omega

/-- Settles O6: the handling of an unassigned kind refuses. -/
theorem unknownKindIsAnswered : Obligations.UnknownKindIsAnswered := by
  unfold Obligations.UnknownKindIsAnswered
  intro kind number body s unassigned free
  have isRequest : ¬ 0x80 ≤ kind.toNat := by
    rcases unassigned with rfl | ⟨-, below⟩
    · decide
    · omega
  rw [exec_request rfl, Part.takeFrame_request isRequest]
  exact takeRequest_refused free fun p _ => handlerOf_unassigned unassigned body p

end Sys2Proof.Machine

/-!
Refused requests (R169, R177): what any request does to the link, the forms of the twenty kinds, and the kinds that need a floor.
-/
namespace Sys2Proof.Machine

/-! ### A taken request and the link -/

/-- What the operations inside an event do to the link: reports are raised on it. -/
theorem Part.Keeps.link {p q : Part} (h : p.Keeps q) :
    q.slu.inFlight = p.slu.inFlight ∧ q.slu.replySlot = p.slu.replySlot := by
  obtain ⟨rs, eq⟩ := h.raised
  rw [eq, Slu.raiseAll_eq]
  exact ⟨rfl, rfl⟩

/-- A request's effect leaves the request in flight and the reply slot to the link (R170). -/
theorem RequestEffect.link {p q : Part} (effect : RequestEffect p q) :
    q.slu.inFlight = p.slu.inFlight ∧ q.slu.replySlot = p.slu.replySlot := by
  cases effect with
  | reads => exact ⟨rfl, rfl⟩
  | draws => exact ⟨rfl, rfl⟩
  | setupFloor g bitmap => rw [Part.kickBus_slu]; exact ⟨rfl, rfl⟩
  | takeRoles rl bays =>
    rw [Part.takeRoles_eq]
    split
    · exact (Part.Keeps.rolesChanged (p.mapFm fun f => { f with rl := rl, spine := spineOf bays })).link
    · exact ⟨rfl, rfl⟩
  | setAuto auto qt => rw [Part.setAuto_slu]; exact ⟨rfl, rfl⟩
  | startSolve => exact ⟨rfl, rfl⟩
  | askSolve => exact ⟨rfl, rfl⟩
  | setPacing mode interval limit =>
    unfold Part.setPacing
    dsimp only
    split
    · exact (Part.Keeps.repace (p.mapCut fun c =>
        { c with mode := mode, interval := clamp 1 60 interval, limit := clamp 60 7200 limit })).link
    · exact ⟨rfl, rfl⟩
    · exact ⟨rfl, rfl⟩
  | hasten => exact (Part.Keeps.cutRemaining _ p).link
  | setSupply budget interval =>
    unfold Part.setSupply
    dsimp only
    split
    · exact (Part.Keeps.allocate (p.mapAfa fun a =>
        { a with supply := some (clamp p.fm.m p.fm.fmax budget), ai := clamp 10 300 interval })).link
    · exact ⟨rfl, rfl⟩
    · exact ⟨rfl, rfl⟩
  | setZone tag requested => exact ((Part.Keeps.mapZt _ p).trans (.retargetZone tag _)).link
  | overrides entries => exact (Part.Keeps.applyOverrides entries p).link
  | pins pins => exact ⟨rfl, rfl⟩
  | mask mask eleven => exact ⟨rfl, rfl⟩
  | owes o => exact ⟨rfl, rfl⟩

theorem Status.takes_of_code {status : Status} (h : status.takes = true) :
    status.code = 0x00 ∨ status.code = 0x01 ∨ status.code = 0x02 ∨ status.code = 0x0A := by
  cases status <;> simp_all [Status.takes, Status.code]

/-- The reply slot after a request that replies: its reply's frame. -/
theorem Part.replySlot_placed {q : Part} {kind number : Byte} (taken : q.slu.inFlight = some ⟨kind, number⟩) (r : Reply) :
    (q.placeReply r).choose.slu.replySlot = some (r.frame kind number) :=
  (Slu.placeReply_choose q.slu kind number r taken).2.2.1

/-- A request that is taken with none in flight, by what its handling does. -/
theorem Part.takeRequest_free {kind number : Byte} {handle : Part → Part × Option Reply} {p : Part} (free : p.slu.inFlight = none) :
    p.takeRequest kind number handle =
      match handle { p with slu := { p.slu with assembler := .hunting, inFlight := some ⟨kind, number⟩ } } with
      | (q, some r) => (q.placeReply r).choose
      | (q, none) => q.choose := by
  simp only [takeRequest, mapSlu_slu, free]
  rfl

/-! ### Forms (R177) -/

/-- Where a handling that checks the length first finds another one. -/
theorem checked_badForm {n : Nat} {body : List Byte} {p : Part} {go : Part × Reply} (len : body.length ≠ n) :
    replying (fun p => checked p (lengthIs n body) go) p = (p, some (.plain .badForm 0)) := by
  rw [replying, lengthIs_of_ne len, checked_some]

/-- R177: a request of wrong form is refused before anything else, whatever its kind. -/
theorem handlerOf_badForm {c : Instr} {kind number : Byte} {body : List Byte} {detail : Nat}
    (request : c.request? = some (kind, number, body)) (form : formFault c = some detail) (p : Part) :
    handlerOf kind body p = (p, some (.plain .badForm detail)) := by
  have length {n : Nat} {body : List Byte} (h : (if body.length = n then none else some 0) = some detail) :
      body.length ≠ n ∧ detail = 0 := by
    split at h
    · cases h
    · next ne =>
      cases h
      exact ⟨ne, rfl⟩
  cases c <;> cases request
  case setRoles =>
    simp only [formFault] at form
    split at form <;> cases form
    next wrong => exact congrArg (fun r => ((checked p r _).1, some (checked p r _).2)) (if_neg wrong)
  case overrideEdges =>
    simp only [formFault] at form
    split at form <;> cases form
    next wrong => exact congrArg (fun r => ((checked p r _).1, some (checked p r _).2)) (if_neg wrong)
  case passThrough =>
    simp only [formFault] at form
    split at form <;> cases form
    next wrong =>
      have fault : p.passFault body = some (.plain .badForm 0) := if_pos (by omega)
      show handlePassThrough body p = _
      rw [handlePassThrough, fault]
  case unknownKind => cases form
  all_goals
    obtain ⟨ne, rfl⟩ := length form
    exact checked_badForm ne

/-! ### Kinds that need a floor (R177) -/

/-- The handlings whose two first checks are the length and the floor. -/
theorem checked_notReady {n : Nat} {body : List Byte} {p : Part} {go : Part × Reply} (len : body.length = n)
    (noFloor : p.fm.state = .unconfigured) :
    replying (fun p => checked p (lengthIs n body) (checked p p.configured go)) p = (p, some (.plain .notReady 0)) := by
  rw [replying, lengthIs_of_eq len, Part.configured_of_unconfigured noFloor, checked_none, checked_some]

/-- R177: a kind that needs a floor, its form right, is refused while there is none. -/
theorem handlerOf_notReady {c : Instr} {kind number : Byte} {body : List Byte} (request : c.request? = some (kind, number, body))
    (wellFormed : c.wellFormed = true) (form : formFault c = none) (needs : kind ∈ floorKinds) {p : Part}
    (noFloor : p.fm.state = .unconfigured) : handlerOf kind body p = (p, some (.plain .notReady 0)) := by
  have length {n : Nat} {body : List Byte} (h : (if body.length = n then none else some 0) = none) : body.length = n := by
    by_contra ne
    rw [if_neg ne] at h
    cases h
  cases c <;> cases request
  case unknownKind =>
    exfalso
    have fits : kind = 0 ∨ 0x15 ≤ kind.toNat := by
      simp only [Instr.wellFormed, unassignedKind, Bool.and_eq_true, Bool.or_eq_true, beq_iff_eq, decide_eq_true_eq] at wellFormed
      obtain ⟨zero | ⟨above, -⟩, -⟩ := wellFormed
      · exact .inl zero
      · exact .inr above
    simp only [floorKinds, List.mem_cons, List.not_mem_nil, or_false] at needs
    rcases fits with rfl | above
    · revert needs
      decide
    · rcases needs with rfl | rfl | rfl | rfl | rfl | rfl | rfl | rfl | rfl | rfl | rfl | rfl | rfl <;> revert above <;> decide
  case setRoles =>
    simp only [formFault] at form
    split at form
    · next right =>
      have passes : rolesForm body = none := if_pos right
      have fault : p.rolesState = some (.plain .notReady 0) := by rw [Part.rolesState, noFloor]
      show replying (handleSetRoles body) p = _
      rw [replying, handleSetRoles, passes, checked_none, fault, checked_some]
    · cases form
  case solve =>
    have len := length form
    show replying (handleSolve body) p = _
    rw [replying, handleSolve, lengthIs_of_eq len, checked_none, noFloor]
  case overrideEdges =>
    simp only [formFault] at form
    split at form
    · next right =>
      have passes : overrideForm body = none := if_pos right
      show replying (handleOverrideEdges body) p = _
      rw [replying, handleOverrideEdges, passes, checked_none, Part.configured_of_unconfigured noFloor, checked_some]
    · cases form
  case passThrough =>
    simp only [formFault] at form
    split at form
    · next right =>
      have fault : p.passFault body = some (.plain .notReady 0) := by
        rw [Part.passFault, if_neg (by omega), if_pos noFloor]
      show handlePassThrough body p = _
      rw [handlePassThrough, fault]
    · cases form
  case setSupply | setZone | readZone | listZones | readBay | readEdges | readChanges | pinKeypad | unpinKeypad =>
    exact checked_notReady (length form) noFloor
  all_goals exact absurd needs (by decide)

/-- No request command is of a reply kind but an ill-formed UNKNOWN_KIND. -/
theorem request_isRequest {c : Instr} {kind number : Byte} {body : List Byte} (request : c.request? = some (kind, number, body))
    (known : ∀ k n b, c ≠ .unknownKind k n b) : ¬ 0x80 ≤ kind.toNat := by
  cases c <;> cases request
  case unknownKind => exact absurd rfl (known _ _ _)
  all_goals decide

/-- A request whose handling is known to refuse. -/
theorem exec_refused {c : Instr} {kind number : Byte} {body : List Byte} {status : Status} {detail : Nat} {s : State}
    (request : c.request? = some (kind, number, body)) (isRequest : ¬ 0x80 ≤ kind.toNat) (free : s.part.slu.inFlight = none)
    (handled : ∀ p : Part, p.fm = s.part.fm → handlerOf kind body p = (p, some (.plain status detail))) :
    ∃ t, exec c s = .next t ∧ AnswersOnly kind number status detail [] s t := by
  rw [exec_request request, Part.takeFrame_request isRequest]
  exact takeRequest_refused free fun p same => handled p (by rw [same])

/-- Settles O8: by what a handling can do (`Handled`), a status that refuses comes with the part as it was; and the forms and the floor
are the handlings' first checks. -/
theorem refusedRequestChangesNothing : Obligations.RefusedRequestChangesNothing := by
  unfold Obligations.RefusedRequestChangesNothing
  refine ⟨fun c kind number status body rest s t request free empty runs slot not0 not1 not2 notA => ?refused,
    fun c kind number body detail s request form free => ?badForm,
    fun c kind number body s request wellFormed form needs noFloor free => ?notReady⟩
  case refused =>
    rw [exec_request request] at runs
    by_cases isRequest : 0x80 ≤ kind.toNat
    · rw [Part.takeFrame, if_pos isRequest] at runs
      cases runs
      rw [show (s.part.hunt).slu.replySlot = s.part.slu.replySlot from rfl, empty] at slot
      cases slot
    · rw [Part.takeFrame_request isRequest] at runs
      have handled := Handled.handlerOf (p := { s.part with slu := { s.part.slu with assembler := .hunting, inFlight := some ⟨kind, number⟩ } })
        body kind
      have eq := Part.takeRequest_free (kind := kind) (number := number) (handle := handlerOf kind body) free
      generalize result : handlerOf kind body
        { s.part with slu := { s.part.slu with assembler := .hunting, inFlight := some ⟨kind, number⟩ } } = outcome at handled eq
      cases handled with
      | refused status' detail =>
        obtain ⟨t', runs', only, answers, keeps⟩ := takeRequest_refused (handle := handlerOf kind body) (kind := kind) (number := number)
          free fun p same => by rw [same, result]
        cases runs.symm.trans runs'
        refine ⟨only, keeps, ?_⟩
        cases slot.symm.trans answers.2.2
        rfl
      | taken q r effect takes =>
        cases runs
        rw [eq, Part.replySlot_placed (effect.link.1)] at slot
        cases slot
        rcases Status.takes_of_code takes with code | code | code | code <;> rw [code] at not0 not1 not2 notA <;> contradiction
      | waits bay raw =>
        cases runs
        rw [eq] at slot
        have kept : ((Part.mapCbm (fun c => { c with passSlot := some ⟨bay, raw⟩ })
            { s.part with slu := { s.part.slu with assembler := .hunting, inFlight := some ⟨kind, number⟩ } }).kickBus).choose.slu.replySlot
              = s.part.slu.replySlot := by
          rw [Part.choose_slu, Part.kickBus_slu]
          exact (Slu.choose_keeps _).2.2.1
        rw [kept, empty] at slot
        cases slot
  case badForm =>
    refine exec_refused request (request_isRequest request ?_) free fun p _ => handlerOf_badForm request form p
    rintro k n b rfl
    cases form
  case notReady =>
    obtain ⟨-, isRequest⟩ := request_fits request wellFormed
    exact exec_refused request isRequest free fun p same =>
      handlerOf_notReady request wellFormed form needs (by rw [same]; exact noFloor)

end Sys2Proof.Machine

/-!
Reset, reports and the transmitter: the cold values, the invariants at reset, what raising a report does, the transmitter's choice at
the end of a frame, and the identity, restart and zone-list requests.
-/
namespace Sys2Proof.Machine

/-! ### Reset, the floor clock, reports -/

/-- Settles O3: a cold restart writes every block's cold value, and so does reset. -/
theorem coldRestartLeavesColdValues : Obligations.ColdRestartLeavesColdValues := by
  unfold Obligations.ColdRestartLeavesColdValues
  have cold (n : Nat) : ColdBlocks { Part.cold with fresh := n } := ⟨rfl, rfl, rfl, rfl, rfl, rfl, rfl, rfl⟩
  exact ⟨fun s => ⟨_, rfl, cold _, rfl⟩, cold 0, rfl⟩

/-- Settles O12: by whether the code is enabled and whether the queue has room. -/
theorem reportIsDroppedLostOrQueued : Obligations.ReportIsDroppedLostOrQueued := by
  unfold Obligations.ReportIsDroppedLostOrQueued
  intro r p
  refine ⟨fun off => ?dropped, fun on full => ?lost, fun on room => ?queued⟩
  case dropped =>
    have disabled : ¬ p.slu.enables r = true := off
    rw [Part.raise, Slu.raise, if_neg disabled]
  case lost =>
    have enabled : p.slu.enables r = true := on
    rw [Part.raise, Slu.raise, if_pos enabled, if_pos full]
  case queued => rw [Part.raise, Slu.raise_queue p.slu r p.fm.clock on room]

/-- Settles O56: adding 1 to a 32-bit word wraps modulo 2^32. -/
theorem floorClockTickCountsSecond : Obligations.FloorClockTickCountsSecond := by
  unfold Obligations.FloorClockTickCountsSecond
  intro s
  have wraps : s.part.fm.clock + 1 = BitVec.ofNat 32 ((s.part.fm.clock.toNat + 1) % 4294967296) := by
    apply BitVec.eq_of_toNat_eq
    simp
  rw [← wraps]
  rfl

/-- Settles O60: reset holds no zone, bay, edge, record or request. -/
theorem invariantsHoldAtReset : Obligations.InvariantsHoldAtReset := by
  unfold Obligations.InvariantsHoldAtReset
  refine ⟨LinkInv.cold 0, ?ranges, ?zones, ?edges, ?net, ?zoneLaws, ?supply, ?pending⟩
  case ranges => unfold ParameterRanges; decide
  case zones =>
    refine ⟨by decide, by decide, ?_, by decide, ?_⟩
    · rw [show State.reset.part.zt.zones = [] by decide]
      exact fun z mem => absurd mem (List.not_mem_nil)
    · intro b r node
      simp [State.reset, Part.cold, FloorModel.cold, FloorModel.node?, FloorModel.bay?] at node
  case edges => exact fun x mem => absurd mem (List.not_mem_nil)
  case net => unfold NetChangeLaws; decide
  case zoneLaws => unfold ZoneLaws; decide
  case supply => unfold SupplyLaws; decide
  case pending => exact ⟨.nil, fun b mem => absurd mem (List.not_mem_nil)⟩

/-! ### The transmitter's choice (R170, R171, R173) -/

/-- What an idle transmitter chooses, and what the choice leaves (R171). -/
def Slu.Chooses (u v : Slu) : Prop :=
  match u.replySlot, u.overlapSlot, u.overlapFirst, u.queue with
  | some r, none, _, q => v.tx = .sending .reply r ∧ v.queue = q ∧ v.lost = u.lost
  | some r, some o, false, q => v.tx = .sending .reply r ∧ v.overlapSlot = some o ∧ v.queue = q ∧ v.lost = u.lost
  | some _, some o, true, q => v.tx = .sending .overlap o ∧ v.overlapSlot = none ∧ v.queue = q ∧ v.lost = u.lost
  | none, some o, _, q => v.tx = .sending .overlap o ∧ v.overlapSlot = none ∧ v.queue = q ∧ v.lost = u.lost
  | none, none, _, r :: rest => v.tx = .sending .report (r.frame u.lost) ∧ v.queue = rest ∧ v.lost = false
  | none, none, _, [] => v.tx = .idle ∧ v.queue = [] ∧ v.lost = u.lost

theorem Slu.choose_idle {u : Slu} (idle : u.tx = .idle) : u.Chooses u.choose := by
  obtain ⟨asm, fl, owed, slot, ov, ovf, tx, queue, mask, lost⟩ := u
  subst idle
  cases slot with
  | some r =>
    cases ov with
    | none => exact ⟨rfl, rfl, rfl⟩
    | some o => cases ovf <;> exact ⟨rfl, rfl, rfl, rfl⟩
  | none =>
    cases ov with
    | some o => exact ⟨rfl, rfl, rfl, rfl⟩
    | none => cases queue <;> exact ⟨rfl, rfl, rfl⟩

/-- Settles O9: the transmitter falls idle and chooses. -/
theorem transmitterChoosesNextFrame : Obligations.TransmitterChoosesNextFrame := by
  unfold Obligations.TransmitterChoosesNextFrame
  intro source f s sending notReply
  have freed : s.part.frameSent = (s.part.mapSlu fun u => { u with tx := .idle }).choose := by
    cases source with
    | reply => exact absurd rfl notReply
    | overlap => simp only [Part.frameSent, sending]
    | report => simp only [Part.frameSent, sending]
  have ends : exec .frameSent s = .next { s with part := (s.part.mapSlu fun u => { u with tx := .idle }).choose } := by
    rw [← freed]
    rfl
  obtain ⟨-, flightKept, slotKept, maskKept, -⟩ := Slu.choose_keeps { s.part.slu with tx := .idle }
  refine ⟨_, ends, rfl, slotKept, flightKept, maskKept, ?_⟩
  have chosen := Slu.choose_idle (u := { s.part.slu with tx := .idle }) rfl
  obtain ⟨⟨⟨asm, fl, owed, slot, ov, ovf, tx, queue, mask, lost⟩, cbm, fm, pmon, rsq, zt, cut, afa, fresh⟩, pending⟩ := s
  cases slot with
  | some r =>
    cases ov with
    | none => exact chosen
    | some o => cases ovf <;> exact chosen
  | none =>
    cases ov with
    | some o => exact chosen
    | none => cases queue <;> exact chosen

/-- Settles O10: the request ends with its reply, then the transmitter chooses; a cold restart leaves nothing to choose. -/
theorem replySentEndsRequest : Obligations.ReplySentEndsRequest := by
  unfold Obligations.ReplySentEndsRequest
  refine ⟨fun f s sending none => ?ends, fun f s sending cold => ?cold⟩
  case ends =>
    have ends : exec .frameSent s = .next { s with part := (s.part.mapSlu fun u =>
        { u with tx := .idle, replySlot := Option.none, inFlight := Option.none, restartOwed := Option.none }).choose } := by
      simp only [exec, execFrameSent, Part.frameSent, sending, Part.endReply, none]
    generalize free : ({ s.part.slu with
      tx := .idle, replySlot := Option.none, inFlight := Option.none, restartOwed := Option.none } : Slu) = u
    have link : (s.part.mapSlu fun u =>
        { u with tx := .idle, replySlot := Option.none, inFlight := Option.none, restartOwed := Option.none }).choose.slu = u.choose := by
      rw [← free]
      rfl
    obtain ⟨asm, inFlight, slot, mask, -⟩ := u.choose_keeps
    have chosen := Slu.choose_idle (u := u) (by rw [← free])
    refine ⟨_, ends, rfl, ?_⟩
    dsimp only
    rw [link, asm, inFlight, slot, mask]
    subst free
    refine ⟨rfl, rfl, rfl, rfl, ?_⟩
    obtain ⟨⟨⟨asm, fl, owed, slot, ov, ovf, tx, queue, mask, lost⟩, cbm, fm, pmon, rsq, zt, cut, afa, fresh⟩, pending⟩ := s
    cases ov with
    | some o => exact chosen
    | none => cases queue <;> exact chosen
  case cold =>
    have ends : exec .frameSent s = .next { s with part := { Part.cold with fresh := s.part.fresh } } := by
      simp only [exec, execFrameSent, Part.frameSent, sending, Part.endReply, cold]
      rfl
    exact ⟨_, ends, ⟨rfl, rfl, rfl, rfl, rfl, rfl, rfl, rfl⟩, rfl⟩

/-! ### IDENTIFY, RESTART and LIST ZONES -/

theorem Part.identityFields_length (p : Part) : p.identityFields.length = 27 := by
  unfold identityFields
  cases p.rsq.result <;> rfl

theorem handleIdentify_done (p : Part) : handleIdentify [] p = (p, .done p.identityFields) := by
  rw [handleIdentify, lengthIs_of_eq (by rfl), checked_none]

/-- Settles O13: the handling reads the part as the request finds it. -/
theorem identifyReportsAndChangesNothing : Obligations.IdentifyReportsAndChangesNothing := by
  unfold Obligations.IdentifyReportsAndChangesNothing
  intro number s free
  obtain ⟨t, runs, answers⟩ := takeRequest_answersOnly 0x01 number (handleIdentify []) s .done 0 s.part.identityFields free
    fun p same => by
      rw [handleIdentify_done, same]
      rfl
  refine ⟨t, s.part.identityFields, runs, answers, s.part.identityFields_length, ?_⟩
  unfold Part.identityFields
  cases s.part.rsq.result <;> rfl

theorem handleRestart_done {option : Byte} {o : RestartOption} (code : RestartOption.ofCode option.toNat = some o) (p : Part) :
    handleRestart [option] p = ({ p with slu := { p.slu with restartOwed := some o } }, .done [option]) := by
  rw [handleRestart, lengthIs_of_eq (by rfl), checked_none, fieldAt_cons_zero, code]
  rfl

theorem RestartOption.ofCode_eq_none {option : Byte} (not1 : option ≠ 1) (not2 : option ≠ 2) :
    RestartOption.ofCode option.toNat = none := by
  have ne1 : option.toNat ≠ 1 := fun h => not1 (BitVec.eq_of_toNat_eq h)
  have ne2 : option.toNat ≠ 2 := fun h => not2 (BitVec.eq_of_toNat_eq h)
  unfold RestartOption.ofCode
  split
  · next h => exact absurd h ne1
  · next h => exact absurd h ne2
  · rfl

/-- Settles O18: the handling writes the restart owed alone, on the link. -/
theorem restartIsOwedUntilReplySent : Obligations.RestartIsOwedUntilReplySent := by
  unfold Obligations.RestartIsOwedUntilReplySent
  intro number option s free
  refine ⟨?warm, ?cold, fun not1 not2 => ?outOfRange⟩
  case warm =>
    rintro rfl
    obtain ⟨t, runs, answers, keeps, eq⟩ := takeRequest_answersOnLink 0x14 number (handleRestart [1]) s _ .done 0 [1] free
      (handleRestart_done (o := .warm) rfl _) rfl rfl
    exact ⟨t, runs, eq, answers, keeps⟩
  case cold =>
    rintro rfl
    obtain ⟨t, runs, answers, keeps, eq⟩ := takeRequest_answersOnLink 0x14 number (handleRestart [2]) s _ .done 0 [2] free
      (handleRestart_done (o := .cold) rfl _) rfl rfl
    exact ⟨t, runs, eq, answers, keeps⟩
  case outOfRange =>
    refine takeRequest_answersOnly 0x14 number _ s .outOfRange 1 [] free fun p _ => ?_
    rw [handleRestart, lengthIs_of_eq (by rfl), checked_none, fieldAt_cons_zero, RestartOption.ofCode_eq_none not1 not2]
    rfl

/-- R188: an entry by whether its zone retires. -/
theorem Zone.entry_eq (z : Zone) :
    z.entry = if z.life = .retiring then [byteOf z.tag, byteOf (256 - z.members), byteOf (256 - z.anchor.getD 0)]
      else [byteOf z.tag, byteOf z.members, byteOf (z.anchor.getD 0)] := by
  have anchor : bayOrZero z.anchor = byteOf (z.anchor.getD 0) := by cases z.anchor <;> rfl
  cases life : z.life <;> simp [Zone.entry, life, anchor]

/-- Settles O27: the handling reads the zone table as the request finds it. -/
theorem listZonesCodesLifeState : Obligations.ListZonesCodesLifeState := by
  unfold Obligations.ListZonesCodesLifeState
  refine ⟨fun number s free noFloor => ?notReady, fun number s free floor => ?shown⟩
  case notReady =>
    refine takeRequest_answersOnly 0x0B number _ s .notReady 0 [] free fun p same => ?_
    rw [handleListZones, lengthIs_of_eq (by rfl), checked_none, Part.configured_of_unconfigured (same ▸ noFloor), checked_some]
    rfl
  case shown =>
    intro entry
    have entries : entry = Zone.entry := funext fun z => z.entry_eq.symm
    rw [entries]
    refine takeRequest_answersOnly 0x0B number _ s .done 0 _ free fun p same => ?_
    rw [handleListZones, lengthIs_of_eq (by rfl), checked_none, Part.configured_of_floor (same ▸ floor), checked_none, same]
    rfl

end Sys2Proof.Machine

/-!
Reception on the cell bus (R20, R38): how far a pass-through's collection has come after any characters, when a reception is full, and
the reply that the end of a pass-through builds.
-/
namespace Sys2Proof.Machine

/-! ### A pass-through's collection (R38) -/

/-- The characters before the first bad one. -/
def cleanRun (chars : List RxChar) : List RxChar := chars.takeWhile fun c => !c.mark && !c.stopLow

/-- How many characters a collection takes: up to the sixteenth or the first bad one. -/
def collecting (chars : List RxChar) : Nat :=
  if 16 ≤ (cleanRun chars).length then 16 else min chars.length ((cleanRun chars).length + 1)

/-- What has ended a collection. -/
def collectionEnd (chars : List RxChar) : Option PassEnd :=
  if 16 ≤ (cleanRun chars).length then some .count else if (cleanRun chars).length < chars.length then some .bad else none

theorem cleanRun_concat (chars : List RxChar) (c : RxChar) :
    cleanRun (chars ++ [c]) =
      if (cleanRun chars).length = chars.length then (if c.clean then chars ++ [c] else chars) else cleanRun chars := by
  have last : [c].takeWhile (fun c => !c.mark && !c.stopLow) = if c.clean then [c] else [] := List.takeWhile_cons
  rw [cleanRun, List.takeWhile_append, last]
  refine if_congr Iff.rfl ?_ rfl
  split <;> simp

theorem collect_concat (chars : List RxChar) (c : RxChar) : collect (chars ++ [c]) = (collect chars).take c := by
  simp [collect, List.foldl_append]

/-- R38: the collection after any characters. -/
theorem collect_eq (chars : List RxChar) :
    collect chars = ⟨((cleanRun chars).take 16).map RxChar.data, collectionEnd chars, chars.length - collecting chars⟩ := by
  induction chars using List.reverseRecOn with
  | nil => rfl
  | append_singleton cs c ih =>
    have le : (cleanRun cs).length ≤ cs.length := (List.takeWhile_prefix _).length_le
    rw [collect_concat, ih, Collection.take]
    by_cases ended : 16 ≤ (cleanRun cs).length ∨ (cleanRun cs).length < cs.length
    case pos =>
      have stays : (cleanRun (cs ++ [c])).take 16 = (cleanRun cs).take 16
          ∧ (16 ≤ (cleanRun (cs ++ [c])).length ↔ 16 ≤ (cleanRun cs).length)
          ∧ (¬ 16 ≤ (cleanRun cs).length → cleanRun (cs ++ [c]) = cleanRun cs) := by
        rw [cleanRun_concat]
        by_cases all : (cleanRun cs).length = cs.length
        · have same : cleanRun cs = cs := (List.takeWhile_prefix _).eq_of_length all
          have long : 16 ≤ cs.length := by omega
          rw [if_pos all, same]
          split
          · refine ⟨List.take_append_of_le_length long, ?_, fun short => absurd long short⟩
            simp only [List.length_append, List.length_cons, List.length_nil]
            omega
          · exact ⟨rfl, Iff.rfl, fun _ => rfl⟩
        · rw [if_neg all]
          exact ⟨rfl, Iff.rfl, fun _ => rfl⟩
      obtain ⟨taken, full, short⟩ := stays
      obtain ⟨cause, isEnded⟩ : ∃ cause, collectionEnd cs = some cause := by
        unfold collectionEnd
        split
        · exact ⟨_, rfl⟩
        · exact ⟨_, if_pos (by omega)⟩
      have endSame : collectionEnd (cs ++ [c]) = collectionEnd cs := by
        simp only [collectionEnd, full, List.length_append, List.length_cons, List.length_nil]
        split
        · rfl
        · next few => rw [short few, if_pos (by omega), if_pos (by omega)]
      have countSame : collecting (cs ++ [c]) = collecting cs := by
        simp only [collecting, full, List.length_append, List.length_cons, List.length_nil]
        split
        · rfl
        · next few => rw [short few]; omega
      have atMost : collecting cs ≤ cs.length := by
        unfold collecting
        split <;> omega
      simp only [isEnded, taken, endSame, countSame, List.length_append, List.length_cons, List.length_nil]
      congr 1
      omega
    case neg =>
      have all : (cleanRun cs).length = cs.length := by omega
      have same : cleanRun cs = cs := (List.takeWhile_prefix _).eq_of_length all
      have few : cs.length < 16 := by omega
      have isOpen : collectionEnd cs = none := by
        unfold collectionEnd
        split_ifs <;> first | omega | rfl
      have next := cleanRun_concat cs c
      rw [if_pos all] at next
      cases clean : c.clean with
      | false =>
        rw [clean, if_neg Bool.false_ne_true] at next
        have ended : collectionEnd (cs ++ [c]) = some .bad := by
          simp only [collectionEnd, next, List.length_append, List.length_cons, List.length_nil]
          split_ifs <;> first | omega | rfl
        have count : (cs ++ [c]).length - collecting (cs ++ [c]) = 0 ∧ cs.length - collecting cs = 0 := by
          simp only [collecting, next, same, List.length_append, List.length_cons, List.length_nil]
          split_ifs <;> omega
        simp only [isOpen, same, next, ended, count, Bool.not_false, if_true]
      | true =>
        rw [clean, if_pos rfl] at next
        have fits : (cs ++ [c]).length ≤ 16 := by simp; omega
        have ended : collectionEnd (cs ++ [c]) = if cs.length + 1 = 16 then some .count else none := by
          simp only [collectionEnd, next, List.length_append, List.length_cons, List.length_nil]
          split_ifs <;> first | omega | rfl
        have count : (cs ++ [c]).length - collecting (cs ++ [c]) = 0 ∧ cs.length - collecting cs = 0 := by
          simp only [collecting, next, same, List.length_append, List.length_cons, List.length_nil]
          split_ifs <;> omega
        simp only [isOpen, same, next, ended, count, List.take_of_length_le (Nat.le_of_lt few), List.take_of_length_le fits,
          Bool.not_true, Bool.false_eq_true, if_false, List.map_append, List.map_cons, List.map_nil, List.length_map]

/-! ### The events of a reception (R20) -/

/-- A character that arrives while reception is open: recorded, and ending the reception that it fills. -/
theorem exec_character {x : Transaction} {void : Bool} {chars : List RxChar} {s : State} (data : Byte) (mark low : Bool)
    (receiving : s.part.cbm.bus = .receiving x void chars) :
    let full : State := { s with part := { s.part with
      cbm := { s.part.cbm with bus := .receiving x void (chars ++ [⟨data, mark, low⟩]) } } }
    exec (.cbReplyCharacter data mark low) s =
      if receptionFull x (chars ++ [⟨data, mark, low⟩]) then exec .receptionEnd full else .next full := by
  simp only [exec, execCbReplyCharacter, Part.receiveCharacter, receiving, execReceptionEnd]
  split <;> rfl

/-- Settles O34: the number of characters decides whether the reception is full; for a pass-through, how many of them its collection
took (`collect_eq`). -/
theorem receptionRecordsCharacters : Obligations.ReceptionRecordsCharacters := by
  unfold Obligations.ReceptionRecordsCharacters
  refine ⟨fun x v s sending => ?opens, fun data mark low s closed => ?discarded,
    fun b want first x v chars data mark low s kind receiving => ?short,
    fun b body v chars data mark low s receiving => ?pass⟩
  case opens =>
    simp only [exec, execCbRequestSent, Part.openReception, sending]
    rfl
  case discarded =>
    simp only [exec, execCbReplyCharacter, Part.receiveCharacter]
    split
    · next x v chars receiving => exact absurd receiving (closed x v chars)
    all_goals rfl
  case short =>
    intro full
    have isFull : receptionFull x (chars ++ [⟨data, mark, low⟩]) = decide (16 ≤ chars.length + 1) := by
      cases kind <;> simp [receptionFull]
    have runs := exec_character data mark low receiving
    dsimp only at runs
    rw [isFull] at runs
    constructor
    · intro few
      rw [runs, if_neg (by rw [decide_eq_true_eq]; omega)]
    · intro fifteen
      rw [runs, if_pos (by rw [decide_eq_true_eq]; omega)]
  case pass =>
    intro all full clean count
    have isFull : receptionFull (.pass b body) all = decide (16 ≤ all.length - count) := by
      rw [receptionFull, collect_eq]
      rfl
    have runs := exec_character data mark low receiving
    dsimp only at runs
    rw [isFull] at runs
    constructor
    · intro few
      rw [runs, if_neg (by rw [decide_eq_true_eq]; omega)]
    · intro enough
      rw [runs, if_pos (by rw [decide_eq_true_eq]; omega)]

/-! ### The end of a pass-through (R38) -/

@[simp] theorem Part.countRound_passSlot (p : Part) : p.countRound.cbm.passSlot = p.cbm.passSlot := by simp

@[simp] theorem Part.pollOrHold_passSlot (p : Part) : p.pollOrHold.cbm.passSlot = p.cbm.passSlot := by
  unfold pollOrHold
  split <;> rfl

@[simp] theorem Part.completeRound_passSlot (p : Part) : p.completeRound.cbm.passSlot = p.cbm.passSlot := by
  simp [completeRound]

@[simp] theorem Part.grantPolling_passSlot (p : Part) : p.grantPolling.cbm.passSlot = p.cbm.passSlot := by
  unfold grantPolling
  dsimp only
  split
  · rfl
  · simp

@[simp] theorem Part.arbitrate_passSlot (p : Part) : p.arbitrate.cbm.passSlot = p.cbm.passSlot := by
  obtain ⟨bus, grant⟩ | ⟨b, pair, grant⟩ | grant := p.grantWith_cases Part.grantPolling <;> rw [arbitrate, grant]
  · rfl
  · rfl
  · simp

/-- The cause that a pass-through's reply names. -/
theorem collectionCause_eq (chars : List RxChar) :
    (collect chars).cause.code =
      if ((cleanRun chars).take 16).length = 16 then 2
      else if ((cleanRun chars).take 16).length < chars.length then 3 else if chars = [] then 0 else 1 := by
  have le : (cleanRun chars).length ≤ chars.length := (List.takeWhile_prefix _).length_le
  rw [collect_eq, Collection.cause, collectionEnd, List.length_take]
  by_cases full : 16 ≤ (cleanRun chars).length
  · have sixteen : min 16 (cleanRun chars).length = 16 := by omega
    rw [if_pos full, if_pos sixteen]
    rfl
  · have fewer : min 16 (cleanRun chars).length = (cleanRun chars).length := by omega
    have notSixteen : (cleanRun chars).length ≠ 16 := by omega
    rw [if_neg full, fewer, if_neg notSixteen]
    by_cases bad : (cleanRun chars).length < chars.length
    · rw [if_pos bad, if_pos bad]
      rfl
    · have all : cleanRun chars = chars := (List.takeWhile_prefix _).eq_of_length (le_antisymm le (Nat.le_of_not_lt bad))
      rw [if_neg bad, if_neg bad, all]
      cases chars with
      | nil => rfl
      | cons c cs => simp [PassEnd.code]

theorem Slu.placeReply_choose_queue (u : Slu) {q : InFlight} (r : Reply) (h : u.inFlight = some q) :
    (u.placeReply r).choose.queue = u.queue := by
  obtain ⟨kind, number⟩ := q
  exact (Slu.placeReply_choose u kind number r h).2.2.2.1

/-- Settles O40: the reply is that of the collection (`collect_eq`, `collectionCause_eq`), and the grant that follows leaves the slot,
the records and the link alone. -/
theorem passThroughReplyIsBuilt : Obligations.PassThroughReplyIsBuilt := by
  unfold Obligations.PassThroughReplyIsBuilt
  intro number b body chars s receiving inFlight got cause
  have ends := exec_receptionEnd_eq receiving
  generalize reply : Reply.done (byteOf (collect chars).collected.length :: (collect chars).cause.code :: (collect chars).collected) = r
    at ends
  have placed : ((s.part.mapCbm fun c => { c with bus := .quiet }).applyOutcome (.pass b body) chars).arbitrate.choose.slu
      = (s.part.slu.placeReply r).choose := by
    rw [Part.choose_slu, Part.arbitrate_slu, ← reply]
    rfl
  obtain ⟨-, flight, slot, -⟩ := Slu.placeReply_choose s.part.slu 0x12 number r inFlight
  have collected : (collect chars).collected = got.map RxChar.data := by
    rw [collect_eq]
    rfl
  have causeEq : (collect chars).cause.code = cause := collectionCause_eq chars
  refine ⟨_, ends, ?slot, ?flight, ?reply, ?bays, ?zt, ?cut, ?afa, ?queue⟩
  case slot =>
    simp only [Part.choose_cbm, Part.arbitrate_passSlot]
    rfl
  case flight =>
    dsimp only
    rw [placed, flight]
  case reply =>
    dsimp only
    rw [placed, slot, ← reply, collected, causeEq, List.length_map]
    rfl
  case bays => simp only [Part.choose_fm, Part.arbitrate_bays]; rfl
  case zt => simp only [Part.choose_zt, Part.arbitrate_zt]; rfl
  case cut => simp only [Part.choose_cut, Part.arbitrate_cut]; rfl
  case afa => simp only [Part.choose_afa, Part.arbitrate_afa]; rfl
  case queue =>
    dsimp only
    rw [placed, Slu.placeReply_choose_queue _ r inFlight]

end Sys2Proof.Machine

/-!
The arbiter and the poll rounds (R26, R29, R32, R36): the lowest eligible member and the lowest due bay, one equation per grant, what
the completion of a round does, and the obligations that these make up; with PASS THROUGH (R194), which a free bus carries at once.
-/
namespace Sys2Proof.Machine

/-! ### The lowest of an ascending list -/

/-- In a list whose keys rise, the first element found is the one of lowest key. -/
theorem find?_lowest {α : Type} {key : α → Nat} {l : List α} (ascending : (l.map key).Pairwise (· < ·)) {holds : α → Bool} {x : α}
    (mem : x ∈ l) (hx : holds x = true) (least : ∀ y ∈ l, holds y = true → key x ≤ key y) : l.find? holds = some x := by
  induction l with
  | nil => cases mem
  | cons y ys ih =>
    rw [List.map_cons, List.pairwise_cons] at ascending
    obtain ⟨below, rest⟩ := ascending
    rcases List.mem_cons.1 mem with rfl | inRest
    · rw [List.find?_cons, hx]
    · have above : key y < key x := below _ (List.mem_map_of_mem inRest)
      have fails : holds y = false := by
        rw [← Bool.not_eq_true]
        intro hy
        exact absurd (least y List.mem_cons_self hy) (by omega)
      rw [List.find?_cons, fails]
      exact ih rest inRest fun z mem => least z (List.mem_cons_of_mem _ mem)

/-! ### The drive writer's choice (R32) -/

/-- R32: a member of the drive-pending set that may be driven. -/
def Part.Eligible (p : Part) (b : Nat) : Prop :=
  p.fm.state = .running ∧ b ∈ p.cbm.drivePending ∧ ∃ r, p.fm.node? b = some r ∧ r.health = .ok ∧ r.level.isSome = true

theorem Part.eligible_iff {p : Part} {b : Nat} (mem : b ∈ p.cbm.drivePending) : p.eligible b = true ↔ p.Eligible b := by
  rw [Part.eligible, Part.Eligible, Bool.and_eq_true, beq_iff_eq]
  refine and_congr_right fun _ => ?_
  cases node : p.fm.node? b with
  | none => simp
  | some r => simp [mem]

/-- R32: the lowest eligible member above the drive cursor, or the lowest of all where none is above it. -/
def Part.DrivesNext (p : Part) (b : Nat) : Prop :=
  (p.cbm.driveCursor < b ∧ ∀ d, p.Eligible d → p.cbm.driveCursor < d → b ≤ d)
    ∨ ((∀ d, p.Eligible d → d ≤ p.cbm.driveCursor) ∧ ∀ d, p.Eligible d → b ≤ d)

theorem Part.nextDrive_of_lowest {p : Part} {b l : Nat} {r : BayRec} (ascending : p.cbm.drivePending.Pairwise (· < ·))
    (eligible : p.Eligible b) (node : p.fm.node? b = some r) (level : r.level = some l) (next : p.DrivesNext b) :
    p.nextDrive = some (b, ⟨levelByte l, damperByte p.fm.qmax r.q⟩) := by
  have mem : b ∈ p.cbm.drivePending := eligible.2.1
  have sorted : (p.cbm.drivePending.map id).Pairwise (· < ·) := by rwa [List.map_id]
  have shows : (p.fm.node? b).bind (fun r => (r.shows p.fm.qmax).map fun pair => (b, pair))
      = some (b, ⟨levelByte l, damperByte p.fm.qmax r.q⟩) := by
    rw [node, Option.bind_some, BayRec.shows, level]
    rfl
  rw [nextDrive, List.find?_filter, List.head?_filter]
  rcases next with ⟨above, least⟩ | ⟨noneAbove, least⟩
  · rw [find?_lowest (x := b) sorted mem]
    · exact shows
    · rw [decide_eq_true_eq, eligible_iff mem, decide_eq_true_eq]
      exact ⟨eligible, above⟩
    · intro d memD holds
      rw [decide_eq_true_eq, eligible_iff memD, decide_eq_true_eq] at holds
      exact least d holds.1 holds.2
  · have noneFound : p.cbm.drivePending.find? (fun d => decide (p.eligible d = true ∧ decide (p.cbm.driveCursor < d) = true)) = none := by
      rw [List.find?_eq_none]
      intro d memD holds
      rw [decide_eq_true_eq, eligible_iff memD, decide_eq_true_eq] at holds
      exact absurd (noneAbove d holds.1) (by omega)
    rw [noneFound, find?_lowest (x := b) sorted mem ((eligible_iff mem).2 eligible) fun d memD holds =>
      least d ((eligible_iff memD).1 holds)]
    exact shows

theorem Part.nextDrive_of_none {p : Part} (none : ∀ d, ¬ p.Eligible d) : p.nextDrive = Option.none := by
  have empty : p.cbm.drivePending.filter p.eligible = [] := by
    rw [List.filter_eq_nil_iff]
    exact fun d mem holds => none d ((eligible_iff mem).1 holds)
  rw [nextDrive, empty]
  rfl

/-! ### The poll sequencer's choice (R26) -/

/-- R26: a bay that the present round has still to visit. -/
def Part.Due (p : Part) (b : Nat) : Prop :=
  p.cbm.pollCursor < b ∧ ∃ r, p.fm.node? b = some r ∧ (r.health = .ok ∨ p.cbm.roundNumber % 8 = 0)

theorem Cbm.due_iff (c : Cbm) (b : Nat) (r : BayRec) :
    c.due (b, r) = true ↔ c.pollCursor < b ∧ (r.health = .ok ∨ c.roundNumber % 8 = 0) := by
  simp [Cbm.due]

theorem Part.dueBay_of_lowest {p : Part} {b : Nat} (due : p.Due b) (least : ∀ d, p.Due d → b ≤ d) : p.dueBay = some b := by
  obtain ⟨above, r, node, visited⟩ := due
  rw [dueBay, find?_lowest (key := Prod.fst) (x := (b, r)) p.fm.nodes_sorted ((p.fm.mem_nodes b r).2 node)
    ((p.cbm.due_iff b r).2 ⟨above, visited⟩)]
  · rfl
  · rintro ⟨d, r'⟩ mem holds
    obtain ⟨above', visited'⟩ := (p.cbm.due_iff d r').1 holds
    exact least d ⟨above', r', (p.fm.mem_nodes d r').1 mem, visited'⟩

theorem Part.dueBay_of_none {p : Part} (none : ∀ d, ¬ p.Due d) : p.dueBay = Option.none := by
  rw [dueBay, Option.map_eq_none_iff, List.find?_eq_none]
  rintro ⟨d, r⟩ mem holds
  obtain ⟨above, visited⟩ := (p.cbm.due_iff d r).1 holds
  exact none d ⟨above, r, (p.fm.mem_nodes d r).1 mem, visited⟩

/-! ### The grants (R36) -/

section
variable {poll : Part → Part} {p : Part}

theorem Part.grantWith_unconfigured (noFloor : p.fm.state = .unconfigured) :
    p.grantWith poll = p.mapCbm fun c => { c with bus := .quiet } := by rw [grantWith, noFloor]

variable (floor : p.fm.state ≠ .unconfigured)
include floor

theorem Part.grantWith_pass {x : PassRequest} (slot : p.cbm.passSlot = some x) :
    p.grantWith poll = p.mapCbm fun c => { c with bus := .sending (.pass x.bay x.body) false } := by
  unfold grantWith
  split
  · next noFloor => exact absurd noFloor floor
  all_goals rw [slot]

variable (free : p.cbm.passSlot = none)
include free

theorem Part.grantWith_drive {b : Nat} {pair : Pair} (next : p.nextDrive = some (b, pair)) (few : p.cbm.driveRun < 4) :
    p.grantWith poll = p.grantDrive b pair := by
  unfold grantWith
  split
  · next noFloor => exact absurd noFloor floor
  all_goals
    rw [free, next]
    exact if_pos few

/-- The poll sequencer has its turn after four drives, or where none can be driven. -/
theorem Part.grantWith_poll (turn : 4 ≤ p.cbm.driveRun ∨ ∀ d, ¬ p.Eligible d) : p.grantWith poll = poll p := by
  unfold grantWith
  split
  · next noFloor => exact absurd noFloor floor
  all_goals
    rw [free]
    dsimp only
    rcases turn with four | none
    · split
      · rw [if_neg (by omega)]
      · rfl
    · rw [nextDrive_of_none none]

end

/-- Blocks other than the cell bus master's are the same. -/
def Part.SameButCbm (p q : Part) : Prop := q = { p with cbm := q.cbm }

theorem Part.pollOrHold_sameButCbm (p : Part) : p.SameButCbm p.pollOrHold := by
  unfold SameButCbm pollOrHold
  split <;> rfl

theorem Part.arbitrateAfterHold_sameButCbm (p : Part) : p.SameButCbm p.arbitrateAfterHold := by
  unfold SameButCbm
  obtain ⟨bus, grant⟩ | ⟨b, pair, grant⟩ | grant := p.grantWith_cases (fun p => (p.mapCbm fun c => { c with driveRun := 0 }).pollOrHold)
    <;> rw [arbitrateAfterHold, grant]
  · rfl
  · rfl
  · exact (p.mapCbm fun c => { c with driveRun := 0 }).pollOrHold_sameButCbm

/-! ### The completion of a round (R11, R29) -/

theorem Part.countRound_of_not_ending {p : Part} (h : ¬ SurveyEndsNext p) :
    p.countRound = { p with fm := if p.fm.state = .survey ∧ p.fm.surveyOver = false then
        { p.fm with surveyRounds := p.fm.surveyRounds + 1 } else p.fm } := by
  unfold countRound
  split
  · next counts =>
    have notYet : ¬ p.fm.sr + 3 ≤ p.fm.surveyRounds + 1 := fun enough => h ⟨counts.1, counts.2, enough⟩
    exact if_neg notYet
  · rfl

theorem Part.countRound_of_ending {p : Part} (h : SurveyEndsNext p) :
    p.countRound = (p.mapFm fun f => { f with surveyRounds := f.surveyRounds + 1 }).endSurvey := by
  obtain ⟨survey, going, enough⟩ := h
  unfold countRound
  rw [if_pos ⟨survey, going⟩]
  exact if_pos enough

/-- The count of rounds does not look at the cell bus. -/
theorem Part.countRound_mapCbm (f : Cbm → Cbm) (p : Part) : (p.mapCbm f).countRound = p.countRound.mapCbm f := by
  by_cases ends : SurveyEndsNext p
  · rw [countRound_of_ending ends, countRound_of_ending (p := p.mapCbm f) ends]
    rfl
  · rw [countRound_of_not_ending ends, countRound_of_not_ending (p := p.mapCbm f) ends]
    rfl

/-- The grant gives the bus its state, whatever it was. -/
theorem Part.arbitrate_overwrites_bus (bus : Bus) (p : Part) : (p.mapCbm fun c => { c with bus := bus }).arbitrate = p.arbitrate := by
  have hold (q : Part) (bus : Bus) : (q.mapCbm fun c => { c with bus := bus }).pollOrHold = q.pollOrHold := by
    unfold pollOrHold
    show (match q.dueBay with | some b => _ | none => _) = _
    cases q.dueBay <;> rfl
  have rounds (q : Part) : (q.mapCbm fun c => { c with bus := bus }).completeRound = q.completeRound.mapCbm fun c => { c with bus := bus } := by
    rw [completeRound, completeRound, countRound_mapCbm, countRound_mapCbm, countRound_mapCbm]
    rfl
  have polls (q : Part) : (q.mapCbm fun c => { c with bus := bus }).grantPolling = q.grantPolling := by
    cases due : (q.mapCbm fun c => { c with driveRun := 0 }).dueBay with
    | some b =>
      have due' : ((q.mapCbm fun c => { c with bus := bus }).mapCbm fun c => { c with driveRun := 0 }).dueBay = some b := due
      rw [grantPolling, due', grantPolling, due]
      rfl
    | none =>
      have due' : ((q.mapCbm fun c => { c with bus := bus }).mapCbm fun c => { c with driveRun := 0 }).dueBay = none := due
      rw [grantPolling, due', grantPolling, due]
      exact (congrArg pollOrHold (rounds (q.mapCbm fun c => { c with driveRun := 0 }))).trans (hold _ bus)
  unfold arbitrate grantWith
  rw [mapCbm_fm]
  cases p.fm.state with
  | unconfigured => rfl
  | survey | running =>
    show (match p.cbm.passSlot with | some x => _ | none => _) = _
    cases p.cbm.passSlot with
    | some x => rfl
    | none =>
      show (match p.nextDrive with | some (b, pair) => _ | none => _) = _
      cases p.nextDrive with
      | none => exact polls p
      | some next => exact congrArg (fun q => if p.cbm.driveRun < 4 then p.grantDrive next.1 next.2 else q) (polls p)

/-- The cell bus after a completed round. -/
theorem Part.completeRound_cbm (p : Part) :
    p.completeRound.cbm = { p.cbm with roundNumber := (p.cbm.roundNumber + 1) % 65536, pollCursor := 0 } := by
  simp [completeRound]

theorem Part.countRound_state (p : Part) : p.countRound.fm.state = p.fm.state := by
  unfold countRound
  split
  · dsimp only
    split <;> rfl
  · rfl

theorem Part.countRound_grid (p : Part) : p.countRound.fm.grid = p.fm.grid := by
  unfold countRound
  split
  · dsimp only
    split <;> rfl
  · rfl

@[simp] theorem Part.completeRound_state (p : Part) : p.completeRound.fm.state = p.fm.state := by
  simp [completeRound, countRound_state]

@[simp] theorem Part.completeRound_grid (p : Part) : p.completeRound.fm.grid = p.fm.grid := by
  simp [completeRound, countRound_grid]

theorem Part.completeRound_node? (p : Part) (b : Nat) : p.completeRound.fm.node? b = p.fm.node? b :=
  FloorModel.node?_congr p.completeRound_bays b

theorem Part.completeRound_eligible (p : Part) (b : Nat) : p.completeRound.Eligible b ↔ p.Eligible b := by
  simp only [Eligible, completeRound_state, completeRound_drivePending, completeRound_node?]

/-- A bay number is at least 1 (R1). -/
theorem FloorModel.pos_of_node? {f : FloorModel} {b : Nat} {r : BayRec} (node : f.node? b = some r) : 0 < b := by
  by_contra zero
  rw [show b = 0 by omega] at node
  simp [node?, bay?] at node

/-! ### The ends of transactions and holds -/

/-- The end of a transaction that has been voided (R10, R40), the transmitter busy: the arbiter's grant alone. -/
theorem exec_receptionEnd_voided {x : Transaction} {chars : List RxChar} {s : State}
    (receiving : s.part.cbm.bus = .receiving x true chars) :
    exec .receptionEnd s = .next { s with part := (s.part.mapCbm fun c => { c with bus := .quiet }).arbitrate.choose } := by
  simp only [exec, execReceptionEnd, Part.endReception, receiving]
  rfl

theorem Part.choose_busy {p : Part} (busy : p.slu.tx ≠ .idle) : p.choose = p := by
  have same : p.slu.choose = p.slu := p.slu.choose_busy busy
  rw [choose, mapSlu, same]

/-- The outcome of a transaction leaves the bus free (R20). -/
theorem Part.applyOutcome_bus (x : Transaction) (chars : List RxChar) (p : Part) : (p.applyOutcome x chars).cbm.bus = p.cbm.bus := by
  cases x with
  | poll b =>
    simp only [applyOutcome]
    split
    · rw [(Keeps.failed ..).cbm]
    · rw [(Keeps.validPoll ..).cbm]
  | drive b sent =>
    simp only [applyOutcome]
    split
    · rw [(Keeps.failed ..).cbm]
    · unfold validDrive
      dsimp only
      split
      · split <;> rfl
      · rfl
  | pass b body => rfl

/-- Settles O41: each clause is the equation of its grant, the lowest bay found by `nextDrive_of_lowest` or `dueBay_of_lowest`. -/
theorem arbiterGrantsInOrder : Obligations.ArbiterGrantsInOrder := by
  unfold Obligations.ArbiterGrantsInOrder
  refine ⟨fun x chars s receiving busy => ?grants, fun x chars s receiving => ?after⟩
  case grants =>
    intro c eligible due granted
    generalize quiet : (s.part.mapCbm fun c => { c with bus := .quiet }) = p
    have ends : exec .receptionEnd s = .next { s with part := p.arbitrate } := by
      rw [exec_receptionEnd_voided receiving, quiet, Part.choose_busy]
      rw [Part.arbitrate_slu, ← quiet]
      exact busy
    have grants (c' : Cbm) (h : p.arbitrate = { p with cbm := c' }) : granted c' := by
      refine ends.trans ?_
      rw [h, ← quiet]
      rfl
    have toEligible (b : Nat) : p.Eligible b ↔ eligible b := by rw [← quiet]; exact Iff.rfl
    have toDue (b : Nat) : (p.mapCbm fun c => { c with driveRun := 0 }).Due b ↔ due b := by rw [← quiet]; exact Iff.rfl
    refine ⟨fun noFloor => ?quiet, fun pass floor slot => ?pass, fun b r l free ascending few can node level lowest => ?drive,
      fun b floor free turn isDue least => ?poll, fun floor free turn noneDue goesOn => ?round⟩
    case quiet =>
      refine grants _ ?_
      subst quiet
      exact Part.grantWith_unconfigured noFloor
    case pass =>
      refine grants _ ?_
      subst quiet
      exact Part.grantWith_pass (p := s.part.mapCbm fun c => { c with bus := .quiet }) floor slot
    case drive =>
      have next : p.nextDrive = some (b, ⟨levelByte l, damperByte p.fm.qmax r.q⟩) := by
        refine Part.nextDrive_of_lowest ?_ ((toEligible b).2 can) ?_ level ?_
        · rw [← quiet]; exact ascending
        · rw [← quiet]; exact node
        · simp only [Part.DrivesNext, toEligible]
          rw [← quiet]
          exact lowest
      refine grants _ ?_
      subst quiet
      have floor : s.part.fm.state ≠ .unconfigured := fun noFloor => by cases noFloor.symm.trans can.1
      exact Part.grantWith_drive (p := s.part.mapCbm fun c => { c with bus := .quiet }) floor free next few
    case poll =>
      have found : (p.mapCbm fun c => { c with driveRun := 0 }).dueBay = some b :=
        Part.dueBay_of_lowest ((toDue b).2 isDue) fun d h => least d ((toDue d).1 h)
      have polls : p.arbitrate = p.grantPolling := by
        subst quiet
        exact Part.grantWith_poll floor free (turn.imp_right fun none d h => none d ((toEligible d).1 h))
      refine grants _ ?_
      rw [polls, Part.grantPolling, found]
      subst quiet
      rfl
    case round =>
      intro round dueNext counted
      have noneFound : (p.mapCbm fun c => { c with driveRun := 0 }).dueBay = none :=
        Part.dueBay_of_none fun d h => noneDue d ((toDue d).1 h)
      have polls : p.arbitrate = p.grantPolling := by
        subst quiet
        exact Part.grantWith_poll floor free (turn.imp_right fun none d h => none d ((toEligible d).1 h))
      generalize next : (p.mapCbm fun c => { c with driveRun := 0 }).completeRound = q
      have grants : p.arbitrate = q.pollOrHold := by
        rw [polls, Part.grantPolling, noneFound, next]
      have qEq : q = { s.part with
          cbm := { c with driveRun := 0, roundNumber := round, pollCursor := 0, bus := .quiet }
          fm := if s.part.fm.state = .survey ∧ s.part.fm.surveyOver = false then
              { s.part.fm with surveyRounds := s.part.fm.surveyRounds + 1 } else s.part.fm } := by
        subst quiet
        rw [← next, Part.completeRound, Part.countRound_of_not_ending]
        · rfl
        · exact goesOn
      have nodes (b : Nat) : q.fm.node? b = s.part.fm.node? b := by
        rw [qEq]
        exact FloorModel.node?_congr (by dsimp only; split <;> rfl) b
      have toNext (b : Nat) : q.Due b ↔ dueNext b := by
        simp only [Part.Due, nodes, dueNext]
        rw [qEq]
        constructor
        · rintro ⟨-, r, node, visited⟩
          exact ⟨r, node, visited⟩
        · rintro ⟨r, node, visited⟩
          exact ⟨FloorModel.pos_of_node? node, r, node, visited⟩
      refine ⟨fun b isDue least => ?_, fun none => ?_⟩
      · have found : q.dueBay = some b := Part.dueBay_of_lowest ((toNext b).2 isDue) fun d h => least d ((toNext d).1 h)
        refine ends.trans ?_
        rw [grants, Part.pollOrHold, found, qEq]
        rfl
      · have notFound : q.dueBay = Option.none := Part.dueBay_of_none fun d h => none d ((toNext d).1 h)
        refine ends.trans ?_
        rw [grants, Part.pollOrHold, notFound, qEq]
        rfl
  case after =>
    intro after
    have free : after.cbm.bus = .quiet := Part.applyOutcome_bus x chars _
    refine ⟨free, ?_⟩
    rw [exec_receptionEnd_eq receiving, exec_receptionEnd_voided rfl]
    have same : Part.mapCbm (fun c => { c with bus := .quiet })
        { after with cbm := { after.cbm with bus := .receiving x true chars } } = after := by
      conv_rhs => rw [show after = { after with cbm := { after.cbm with bus := after.cbm.bus } } from rfl, free]
      rfl
    dsimp only
    rw [same]
    rfl

/-- Settles O42: the round completes, then the same equations give the grant; a voided hold ends as a voided transaction does. -/
theorem idleHoldCompletesRound : Obligations.IdleHoldCompletesRound := by
  unfold Obligations.IdleHoldCompletesRound
  refine ⟨fun s holding floor => ?ends, fun x chars s holding busy => ?voided⟩
  case ends =>
    intro c round due eligible
    generalize counted : s.part.completeRound = p
    have ends : exec .idleHoldEnd s = .next { s with part := p.arbitrateAfterHold } := by
      simp only [exec, execIdleHoldEnd, Part.endHold, holding, counted]
    have others : p.SameButCbm p.arbitrateAfterHold := p.arbitrateAfterHold_sameButCbm
    have cbm : p.cbm = { c with roundNumber := round, pollCursor := 0 } := by
      rw [← counted]
      exact Part.completeRound_cbm _
    have floor' : p.fm.state ≠ .unconfigured := by rwa [← counted, Part.completeRound_state]
    have nodes (b : Nat) : p.fm.node? b = s.part.fm.node? b := by rw [← counted, Part.completeRound_node?]
    have toEligible (b : Nat) : p.Eligible b ↔ eligible b := by
      rw [← counted, Part.completeRound_eligible]
      exact Iff.rfl
    have toDue (b : Nat) : (p.mapCbm fun c => { c with driveRun := 0 }).Due b ↔ due b := by
      simp only [Part.Due, Part.mapCbm_cbm, Part.mapCbm_fm, nodes, cbm]
      exact Iff.rfl
    have qmax : p.fm.qmax = (s.part.fm.grid.map Grid.qmax).getD 0 := by
      rw [← counted, FloorModel.qmax, Part.completeRound_grid]
    refine ⟨_, ends, rfl, ?slu, ?bays, fun running => ?running, fun pass slot => ?pass,
      fun b r l free ascending few can node level lowest => ?drive, fun b free turn isDue least => ?poll,
      fun free turn noneDue => ?hold⟩
    case slu =>
      dsimp only
      rw [others, ← counted]
      exact Part.completeRound_slu _
    case bays =>
      dsimp only
      rw [others, ← counted]
      exact Part.completeRound_bays _
    case running =>
      have same : p = { s.part with cbm := p.cbm } := by
        rw [← counted, Part.completeRound, Part.countRound, if_neg]
        · rfl
        · rintro ⟨survey, -⟩
          cases survey.symm.trans running
      dsimp only
      rw [others, same]
      exact ⟨rfl, rfl, rfl⟩
    case pass =>
      have slot' : p.cbm.passSlot = some pass := by rw [cbm]; exact slot
      dsimp only
      rw [Part.arbitrateAfterHold, Part.grantWith_pass floor' slot', Part.mapCbm_cbm, cbm]
    case drive =>
      have free' : p.cbm.passSlot = none := by rw [cbm]; exact free
      have next : p.nextDrive = some (b, ⟨levelByte l, damperByte p.fm.qmax r.q⟩) := by
        refine Part.nextDrive_of_lowest ?_ ((toEligible b).2 can) ((nodes b).trans node) level ?_
        · rw [cbm]; exact ascending
        · simp only [Part.DrivesNext, toEligible, cbm]
          exact lowest
      have few' : p.cbm.driveRun < 4 := by rw [cbm]; exact few
      dsimp only
      rw [Part.arbitrateAfterHold, Part.grantWith_drive floor' free' next few', Part.grantDrive, Part.mapCbm_cbm, cbm, qmax]
    case poll =>
      have free' : p.cbm.passSlot = none := by rw [cbm]; exact free
      have turn' : 4 ≤ p.cbm.driveRun ∨ ∀ d, ¬ p.Eligible d := by
        simp only [toEligible, cbm]
        exact turn
      have found : (p.mapCbm fun c => { c with driveRun := 0 }).dueBay = some b :=
        Part.dueBay_of_lowest ((toDue b).2 isDue) fun d h => least d ((toDue d).1 h)
      dsimp only
      rw [Part.arbitrateAfterHold, Part.grantWith_poll floor' free' turn', Part.pollOrHold, found]
      dsimp only [Part.grantPoll, Part.mapCbm_cbm]
      rw [cbm]
    case hold =>
      have free' : p.cbm.passSlot = none := by rw [cbm]; exact free
      have turn' : 4 ≤ p.cbm.driveRun ∨ ∀ d, ¬ p.Eligible d := by
        simp only [toEligible, cbm]
        exact turn
      have found : (p.mapCbm fun c => { c with driveRun := 0 }).dueBay = none :=
        Part.dueBay_of_none fun d h => noneDue d ((toDue d).1 h)
      dsimp only
      rw [Part.arbitrateAfterHold, Part.grantWith_poll floor' free' turn', Part.pollOrHold, found]
      dsimp only [Part.mapCbm_cbm]
      rw [cbm]
  case voided =>
    have ends : exec .idleHoldEnd s = .next { s with part := s.part.arbitrate } := by
      simp only [exec, execIdleHoldEnd, Part.endHold, holding]
    rw [ends, exec_receptionEnd_voided rfl, Part.choose_busy]
    · exact congrArg (fun q => Host.Outcome.next { s with part := q }) (Part.arbitrate_overwrites_bus .quiet s.part).symm
    · rw [Part.arbitrate_slu]
      exact busy

end Sys2Proof.Machine

/-!
The monitor and the sequencer: a notice as one equation, the survey's end (R12), the quiet timer's expiry (R50), a stale solve (R78), and
the requests SOLVE (R182), SET ROLES (R180) and, outside a cutover, SET PACING (R183).
-/
namespace Sys2Proof.Machine

/-! ### Notices and the return to IDLE, as one equation each -/

/-- R62: whether a notice starts a solve. -/
def Part.noticeStarts (p : Part) : Bool := p.pmon.auto && p.rsq.seq == .idle && p.fm.state == .running

/-- R62, R64: a notice under a SETTLED monitor. -/
theorem Part.notice_of_settled {p : Part} (settled : p.pmon.monitor = .settled) :
    p.notice = { p with
      pmon := { p.pmon with changed := if p.noticeStarts then false else p.pmon.changed }
      rsq := if p.noticeStarts then
          { p.rsq with seq := .solving, requested := false, snapshot := some ⟨p.pmon.edges.map Edge.effective, false⟩ }
        else p.rsq } := by
  by_cases starts : p.noticeStarts = true
  · simp only [noticeStarts, Bool.and_eq_true, beq_iff_eq] at starts
    obtain ⟨⟨auto, idle⟩, running⟩ := starts
    rw [notice_of_due running settled auto idle, show p.noticeStarts = true by simp [noticeStarts, auto, idle, running]]
    rfl
  · rw [notice_of_not_due]
    · simp only [starts]
      rfl
    · rintro ⟨running, -, auto, idle⟩
      exact starts (by simp [noticeStarts, auto, idle, running])

/-- R63: the decision of a RUNNING floor that starts a solve. -/
theorem Part.decideAtIdle_of_asked {p : Part} (running : p.fm.state = .running)
    (asked : p.rsq.requested = true ∨ (p.pmon.monitor = .settled ∧ p.pmon.auto = true)) : p.decideAtIdle = p.startSolve :=
  if_pos ⟨running, asked⟩

theorem Part.decideAtIdle_of_not_asked {p : Part}
    (unasked : ¬ (p.rsq.requested = true ∨ (p.pmon.monitor = .settled ∧ p.pmon.auto = true))) : p.decideAtIdle = p :=
  if_neg fun ⟨_, asked⟩ => unasked asked

/-! ### The survey's end (R12) -/

theorem Pmon.edge?_mapEdges (m : Pmon) (g : Edge → Edge) (e : Nat) :
    ({ m with edges := m.edges.map g } : Pmon).edge? e = (m.edge? e).map g := by
  unfold edge?
  split
  · rfl
  · exact List.getElem?_map

theorem Edge.settleAtEnd_unknown {x : Edge} (sensed : x.kind = .sensed) (unknown : x.settled = .unknown) :
    x.settleAtEnd.settled = (if x.raw = .present then .walled else .opened) ∧ x.settleAtEnd.candidate = none
      ∧ x.settleAtEnd.effective = match x.override with
        | .forceWall => .walled
        | .forceOpen => .opened
        | .none => x.settleAtEnd.settled := by
  rw [settleAtEnd, if_pos ⟨sensed, unknown⟩]
  exact ⟨rfl, rfl, rfl⟩

theorem Edge.settleAtEnd_settled {x : Edge} (h : x.kind = .fixed ∨ x.settled ≠ .unknown) : x.settleAtEnd = x := by
  refine if_neg fun ⟨sensed, unknown⟩ => ?_
  rcases h with fixed | settled
  · cases fixed.symm.trans sensed
  · exact settled unknown

theorem Edge.settleAtEnd_override (x : Edge) : x.settleAtEnd.override = x.override := by unfold settleAtEnd; split <;> rfl

theorem Edge.settleAtEnd_raw (x : Edge) : x.settleAtEnd.raw = x.raw := by unfold settleAtEnd; split <;> rfl

/-- Outside the link and the cell bus, the parts are the same. -/
def Part.SameOutsideLinkAndBus (p q : Part) : Prop := ∃ slu cbm, q = { p with slu := slu, cbm := cbm }

namespace Part.SameOutsideLinkAndBus
variable {p q r : Part}

theorem mapCbm (f : Cbm → Cbm) (p : Part) : p.SameOutsideLinkAndBus (p.mapCbm f) := ⟨_, _, rfl⟩

theorem choose (h : p.SameOutsideLinkAndBus q) : p.SameOutsideLinkAndBus q.choose := by
  obtain ⟨slu, cbm, rfl⟩ := h
  exact ⟨_, _, rfl⟩

theorem thenCbm (h : p.SameOutsideLinkAndBus q) (h' : q.SameButCbm r) : p.SameOutsideLinkAndBus r := by
  obtain ⟨slu, cbm, rfl⟩ := h
  exact ⟨_, _, h'⟩

end Part.SameOutsideLinkAndBus

/-- Both events that complete a round at the survey's last count end the survey, whatever the bus and the link then do. -/
theorem exec_surveyEnd {c : Instr} {s : State}
    (completes : (c = .idleHoldEnd ∧ s.part.cbm.bus = .hold false)
      ∨ (c = .receptionEnd ∧ (∃ x chars, s.part.cbm.bus = .receiving x true chars) ∧ s.part.cbm.passSlot = none
          ∧ ∀ b r, s.part.fm.node? b = some r → s.part.cbm.pollCursor < b → r.health = .silent ∧ s.part.cbm.roundNumber % 8 ≠ 0))
    (survey : s.part.fm.state = .survey) (ends : SurveyEndsNext s.part) :
    ∃ t, exec c s = .next t
      ∧ (s.part.mapFm fun f => { f with surveyRounds := f.surveyRounds + 1 }).endSurvey.SameOutsideLinkAndBus t.part := by
  generalize ended : (s.part.mapFm fun f => { f with surveyRounds := f.surveyRounds + 1 }).endSurvey = p
  have round (f : Cbm → Cbm) : p.SameOutsideLinkAndBus (s.part.mapCbm f).completeRound := by
    rw [Part.completeRound, Part.countRound_mapCbm, Part.countRound_mapCbm, Part.countRound_of_ending ends, ended]
    exact ⟨_, _, rfl⟩
  rcases completes with ⟨rfl, holding⟩ | ⟨rfl, ⟨x, chars, receiving⟩, free, noneDue⟩
  · refine ⟨{ s with part := s.part.completeRound.arbitrateAfterHold },
      by simp only [exec, execIdleHoldEnd, Part.endHold, holding], ?_⟩
    exact (round id).thenCbm (Part.arbitrateAfterHold_sameButCbm _)
  · refine ⟨_, exec_receptionEnd_voided receiving, ?_⟩
    generalize quiet : (s.part.mapCbm fun c => { c with bus := .quiet }) = q
    have ineligible (d : Nat) : ¬ q.Eligible d := by
      rintro ⟨running, -⟩
      rw [← quiet] at running
      cases survey.symm.trans running
    have noDue (d : Nat) : ¬ (q.mapCbm fun c => { c with driveRun := 0 }).Due d := by
      rw [← quiet]
      rintro ⟨above, r, node, visited⟩
      obtain ⟨silent, notEighth⟩ := noneDue d r node above
      rcases visited with ok | eighth
      · cases silent.symm.trans ok
      · exact notEighth eighth
    have polls : q.arbitrate = q.grantPolling := by
      refine Part.grantWith_poll ?_ ?_ (.inr ineligible)
      · rw [← quiet]
        exact fun noFloor => by cases survey.symm.trans noFloor
      · rw [← quiet]
        exact free
    rw [polls, Part.grantPolling, Part.dueBay_of_none noDue, ← quiet]
    exact ((round fun c => { c with bus := .quiet, driveRun := 0 }).thenCbm (Part.pollOrHold_sameButCbm _)).choose

/-- Settles O43: the round's completion ends the survey (`exec_surveyEnd`), and each edge is settled by its own equation. -/
theorem surveyEndSettlesEdges : Obligations.SurveyEndSettlesEdges := by
  unfold Obligations.SurveyEndSettlesEdges
  intro c s completes survey going enough
  obtain ⟨t, runs, slu, cbm, same⟩ := exec_surveyEnd completes survey ⟨survey, going, enough⟩
  have pmon : t.part.pmon = { s.part.pmon with edges := s.part.pmon.edges.map Edge.settleAtEnd, changed := false } := by
    rw [same]
    rfl
  have rsq : t.part.rsq = { s.part.rsq with
      seq := .solving, requested := false
      snapshot := some ⟨(s.part.pmon.edges.map Edge.settleAtEnd).map Edge.effective, s.part.fm.state == .survey⟩ } := by
    rw [same]
    rfl
  have state : t.part.fm.state = s.part.fm.state := by
    rw [same]
    rfl
  have cut : t.part.cut = s.part.cut := by
    rw [same]
    rfl
  have zt : t.part.zt = s.part.zt := by
    rw [same]
    rfl
  refine ⟨t, runs, state.trans survey, by rw [rsq], by rw [rsq, pmon, survey]; rfl, by rw [pmon], by rw [pmon], by rw [pmon],
    by rw [pmon], cut, zt, fun e x held => ⟨x.settleAtEnd, ?edge, x.settleAtEnd_override, x.settleAtEnd_raw,
      fun sensed unknown => Edge.settleAtEnd_unknown sensed unknown, fun settled => Edge.settleAtEnd_settled settled⟩⟩
  case edge =>
    rw [pmon]
    exact (Pmon.edge?_mapEdges s.part.pmon Edge.settleAtEnd e).trans (by rw [held]; rfl)

/-! ### The quiet timer's expiry (R50) and a stale solve (R78) -/

/-- A report that the mask enables and the queue has room for, raised while the transmitter is busy. -/
theorem Slu.raise_choose_queue {u : Slu} {r : Report} (c : Clock) (reportable : Reportable u r.code) :
    (u.raise r c).choose.queue = u.queue ++ [⟨r, c⟩] := by
  obtain ⟨enabled, room, busy⟩ := reportable
  obtain ⟨-, -, -, -, -, tx, -⟩ := u.raise_keeps r c
  rw [choose_busy _ (by rwa [tx]), raise_queue u r c enabled room]

/-- R78: a stale result dropped and reported, before the decision on a new solve. -/
def Part.dropSolve (p : Part) : Part := (p.mapRsq fun r => { r with seq := .idle, snapshot := none }).raise .solveDiscarded

theorem Part.discardSolve_of_survey {p : Part} (survey : p.fm.state = .survey) : p.discardSolve = p.dropSolve.startSolve := by
  show (match p.fm.state with | .survey => _ | .running => _ | .unconfigured => _) = _
  rw [survey]
  rfl

theorem Part.discardSolve_of_running {p : Part} (running : p.fm.state = .running) : p.discardSolve = p.dropSolve.decideAtIdle := by
  show (match p.fm.state with | .survey => _ | .running => _ | .unconfigured => _) = _
  rw [running]
  rfl

/-- Settles O44: the expiry may happen, and its notice is one under a SETTLED monitor. -/
theorem quietExpirySettlesMonitor : Obligations.QuietExpirySettlesMonitor := by
  unfold Obligations.QuietExpirySettlesMonitor
  intro since span s running may starts
  have expires : s.part.quietExpiry = (s.part.mapPmon fun m => { m with quiet := .stopped, monitor := .settled }).notice := by
    refine if_pos ?_
    rw [running]
    exact decide_eq_true may
  exact (congrArg (fun q => Host.Outcome.next { s with part := q }) (expires.trans (Part.notice_of_settled rfl))).trans rfl

/-- Settles O45: the result is dropped and reported; then the floor's state and R63 say whether a solve starts. -/
theorem staleSolveIsDiscarded : Obligations.StaleSolveIsDiscarded := by
  unfold Obligations.StaleSolveIsDiscarded
  intro snap s solving held stale floor again
  have discards : s.part.completeSolve = s.part.discardSolve := by
    unfold Part.completeSolve
    rw [solving, held]
    exact if_pos stale
  have runs : exec .solveCompletion s = .next { s with part := s.part.discardSolve.choose } := by
    rw [← discards]
    rfl
  have queue (slu : s.part.discardSolve.slu = s.part.slu.raise .solveDiscarded s.part.fm.clock) :
      Reportable s.part.slu 3 → s.part.discardSolve.choose.slu.queue = s.part.slu.queue ++ [⟨.solveDiscarded, s.part.fm.clock⟩] := by
    intro reportable
    exact (congrArg (fun u => (Slu.choose u).queue) slu).trans (Slu.raise_choose_queue (r := .solveDiscarded) _ reportable)
  by_cases survey : s.part.fm.state = .survey
  · have starts : s.part.discardSolve = s.part.dropSolve.startSolve := Part.discardSolve_of_survey survey
    refine ⟨_, runs, fun unasked => absurd (.inl survey) unasked, fun _ => ?_, queue (by rw [starts]; rfl)⟩
    rw [starts]
    rfl
  · have running : s.part.fm.state = .running := by
      cases state : s.part.fm.state with
      | unconfigured => exact absurd state floor
      | survey => exact absurd state survey
      | running => rfl
    have decides : s.part.discardSolve = s.part.dropSolve.decideAtIdle := Part.discardSolve_of_running running
    by_cases asked : s.part.rsq.requested = true ∨ (s.part.pmon.monitor = .settled ∧ s.part.pmon.auto = true)
    · have starts : s.part.discardSolve = s.part.dropSolve.startSolve :=
        decides.trans (Part.decideAtIdle_of_asked running asked)
      refine ⟨_, runs, fun unasked => absurd (.inr asked) unasked, fun _ => ?_, queue (by rw [starts]; rfl)⟩
      rw [starts]
      rfl
    · have stays : s.part.discardSolve = s.part.dropSolve := decides.trans (Part.decideAtIdle_of_not_asked asked)
      refine ⟨_, runs, fun _ => ?_, fun yes => ?_, queue (by rw [stays]; rfl)⟩
      · rw [stays]
        rfl
      · exact absurd yes (not_or.2 ⟨survey, asked⟩)

/-! ### SOLVE (R182) -/

section
variable {p : Part}

theorem handleSolve_notReady (floor : p.fm.state ≠ .running) : handleSolve [] p = (p, .plain .notReady 0) := by
  rw [handleSolve, lengthIs_of_eq (by rfl), checked_none]
  cases state : p.fm.state with
  | running => exact absurd state floor
  | unconfigured | survey => rfl

variable (running : p.fm.state = .running)
include running

theorem handleSolve_accepted (idle : p.rsq.seq = .idle) : handleSolve [] p = (p.startSolve, .plain .accepted 0) := by
  rw [handleSolve, lengthIs_of_eq (by rfl), checked_none, running, idle]

theorem handleSolve_busy (solving : p.rsq.seq = .solving) : handleSolve [] p = (p, .plain .busy 0) := by
  rw [handleSolve, lengthIs_of_eq (by rfl), checked_none, running, solving]

theorem handleSolve_deferred (cutting : p.rsq.seq = .cutting) :
    handleSolve [] p = (p.mapRsq fun r => { r with requested := true }, .plain .deferred 0) := by
  rw [handleSolve, lengthIs_of_eq (by rfl), checked_none, running, cutting]

end

/-- Settles O20: the floor's state and the sequencer's say which. -/
theorem solveStartsOrIsDeferred : Obligations.SolveStartsOrIsDeferred := by
  unfold Obligations.SolveStartsOrIsDeferred
  intro number s free
  refine ⟨fun floor => ?notReady, fun running idle => ?accepted, fun running solving => ?busy, fun running cutting => ?deferred⟩
  case notReady =>
    refine takeRequest_answersOnly 0x05 number _ s .notReady 0 [] free ?_
    rintro p rfl
    exact handleSolve_notReady floor
  case accepted =>
    obtain ⟨t, runs, answers, keeps, eq⟩ := takeRequest_answers 0x05 number _ s _ .accepted 0 [] free
      (handleSolve_accepted running idle) rfl
    refine ⟨t, runs, answers, keeps, eq.trans ?_⟩
    simp only [Part.startSolve, running]
    rfl
  case busy =>
    refine takeRequest_answersOnly 0x05 number _ s .busy 0 [] free ?_
    rintro p rfl
    exact handleSolve_busy running solving
  case deferred =>
    exact takeRequest_answers 0x05 number _ s _ .deferred 0 [] free (handleSolve_deferred running cutting) rfl

/-! ### SET PACING outside a cutover (R183) -/

theorem Pacing.ofCode_code (mode : Pacing) : Pacing.ofCode mode.code.toNat = some mode := by cases mode <;> rfl

theorem Pacing.ofCode_above {n : Nat} (above : 2 < n) : Pacing.ofCode n = none := by
  match n, above with
  | n + 3, _ => rfl

theorem handleSetPacing_outOfRange {code : Byte} (interval hi lo : Byte) (p : Part) (above : 2 < code.toNat) :
    handleSetPacing [code, interval, hi, lo] p = (p, .plain .outOfRange 1) := by
  rw [handleSetPacing, lengthIs_of_eq (by rfl), checked_none, fieldAt_cons_zero, Pacing.ofCode_above above]

theorem handleSetPacing_mode (mode : Pacing) (interval hi lo : Byte) (p : Part) :
    handleSetPacing [mode.code, interval, hi, lo] p =
      let q := p.setPacing mode interval.toNat (word16 hi lo)
      (q, .done (mode.code :: byteOf q.cut.interval :: bytes16 q.cut.limit
        ++ [byteOf (p.cut.list.length - q.cut.list.length)])) := by
  rw [handleSetPacing, lengthIs_of_eq (by rfl), checked_none, fieldAt_cons_zero, Pacing.ofCode_code]
  rfl

theorem Part.setPacing_of_not_cutting {p : Part} (mode : Pacing) (interval limit : Nat) (free : p.rsq.seq ≠ .cutting) :
    p.setPacing mode interval limit =
      p.mapCut fun c => { c with mode := mode, interval := clamp 1 60 interval, limit := clamp 60 7200 limit } := by
  rw [setPacing]
  dsimp only [mapCut_rsq]
  cases state : p.rsq.seq with
  | cutting => exact absurd state free
  | idle | solving => rfl

theorem handleSetPacing_written {p : Part} (mode : Pacing) (interval hi lo : Byte) (free : p.rsq.seq ≠ .cutting) :
    handleSetPacing [mode.code, interval, hi, lo] p =
      (p.mapCut fun c =>
        { c with mode := mode, interval := clamp 1 60 interval.toNat, limit := clamp 60 7200 (word16 hi lo) },
      .done ([mode.code, byteOf (clamp 1 60 interval.toNat)] ++ bytes16 (clamp 60 7200 (word16 hi lo)) ++ [0])) := by
  rw [handleSetPacing_mode, Part.setPacing_of_not_cutting mode interval.toNat (word16 hi lo) free]
  dsimp only [Part.mapCut_cut]
  rw [Nat.sub_self]
  rfl

/-- Settles O21: a code above 2 names no mode; a mode's own code is read back, and no cutover is there to act on. -/
theorem setPacingWritesParameters : Obligations.SetPacingWritesParameters := by
  unfold Obligations.SetPacingWritesParameters
  intro number code interval hi lo s free notCutting
  refine ⟨fun above => ?outOfRange, fun mode coded => ?done⟩
  case outOfRange =>
    exact takeRequest_answersOnly 0x06 number _ s .outOfRange 1 [] free fun p _ => handleSetPacing_outOfRange interval hi lo p above
  case done =>
    intro held limit
    subst coded
    exact takeRequest_answers 0x06 number _ s _ .done 0 _ free (handleSetPacing_written mode interval hi lo notCutting) rfl

/-! ### SET ROLES (R180) -/

theorem FloorModel.badRole_of_good {f : FloorModel} {bays : List Nat} (good : ∀ b ∈ bays, (f.node? b).isSome = true) (i : Nat) :
    f.badRole i bays = none := by
  induction bays generalizing i with
  | nil => rfl
  | cons b bs ih =>
    obtain ⟨head, tail⟩ := List.forall_mem_cons.1 good
    rw [badRole, if_pos head]
    exact ih tail (i + 1)

/-- R180: the first entry that is no ROOMABLE bay. -/
theorem FloorModel.badRole_first {f : FloorModel} {bays : List Nat} {i : Nat} (inside : i < bays.length)
    (before : ∀ j, j < i → (f.node? (bays.getD j 0)).isSome = true) (bad : ¬ (f.node? (bays.getD i 0)).isSome = true) (n : Nat) :
    f.badRole n bays = some (entryDetail (n + i)) := by
  induction bays generalizing i n with
  | nil => exact absurd inside (Nat.not_lt_zero i)
  | cons b bs ih =>
    cases i with
    | zero => exact if_neg bad
    | succ i =>
      have first : (f.node? b).isSome = true := before 0 (by omega)
      rw [badRole, if_pos first, ih (Nat.lt_of_succ_lt_succ inside) (fun j lt => before (j + 1) (by omega)) bad]
      congr 2
      omega

theorem foldl_insertSet_sorted (bays s : List Nat) (h : s.Pairwise (· < ·)) :
    (bays.foldl (fun s b => insertSet b s) s).Pairwise (· < ·) := by
  induction bays generalizing s with
  | nil => exact h
  | cons b bs ih => exact ih _ (insertSet_sorted b s h)

theorem mem_foldl_insertSet (bays s : List Nat) (b : Nat) : b ∈ bays.foldl (fun s b => insertSet b s) s ↔ b ∈ s ∨ b ∈ bays := by
  induction bays generalizing s with
  | nil => simp
  | cons x xs ih =>
    rw [List.foldl_cons, ih, mem_insertSet, List.mem_cons]
    tauto

theorem spineOf_sorted (bays : List Nat) : (spineOf bays).Pairwise (· < ·) := foldl_insertSet_sorted bays [] .nil

theorem mem_spineOf (bays : List Nat) (b : Nat) : b ∈ spineOf bays ↔ b ∈ bays := by
  rw [spineOf, mem_foldl_insertSet]
  simp

theorem rolesForm_of_counted {rl n : Byte} {bays : List Byte} (counted : n.toNat = bays.length) (few : bays.length ≤ 32) :
    rolesForm (rl :: n :: bays) = none := by
  refine if_pos ⟨by simp, ?_, ?_⟩
  · rw [fieldAt_cons_one]
    omega
  · rw [fieldAt_cons_one, List.length_cons, List.length_cons]
    omega

/-- R4: outside a solve, a floor takes roles. -/
theorem Part.rolesState_of_free {p : Part} (floor : p.fm.state ≠ .unconfigured) (free : p.rsq.seq ≠ .solving) : p.rolesState = none := by
  unfold rolesState
  split <;> simp_all

theorem Part.rolesState_of_solving {p : Part} (floor : p.fm.state ≠ .unconfigured) (solving : p.rsq.seq = .solving) :
    p.rolesState = some (.plain .busy 0) := by
  unfold rolesState
  split <;> simp_all

theorem Part.rolesState_of_unconfigured {p : Part} (noFloor : p.fm.state = .unconfigured) :
    p.rolesState = some (.plain .notReady 0) := by
  rw [rolesState, noFloor]

section
variable {rl n : Byte} {bays : List Byte} {p : Part} (counted : n.toNat = bays.length) (few : bays.length ≤ 32)
include counted few

theorem handleSetRoles_state {r : Reply} (refused : p.rolesState = some r) : handleSetRoles (rl :: n :: bays) p = (p, r) := by
  rw [handleSetRoles, rolesForm_of_counted counted few, checked_none, refused, checked_some]

theorem handleSetRoles_fault {detail : Nat} (taken : p.rolesState = none)
    (fault : p.fm.rolesFault rl.toNat (bays.map BitVec.toNat) = some detail) :
    handleSetRoles (rl :: n :: bays) p = (p, .plain .outOfRange detail) := by
  rw [handleSetRoles, rolesForm_of_counted counted few, checked_none, taken, checked_none]
  dsimp only
  rw [fieldAt_cons_zero, List.drop_succ_cons, List.drop_succ_cons, List.drop_zero, fault]
  rfl

theorem handleSetRoles_done (taken : p.rolesState = none) (valid : p.fm.rolesFault rl.toNat (bays.map BitVec.toNat) = none) :
    handleSetRoles (rl :: n :: bays) p =
      let spine := spineOf (bays.map BitVec.toNat)
      (p.takeRoles rl.toNat spine, .done (rl :: byteOf spine.length :: spine.map byteOf)) := by
  rw [handleSetRoles, rolesForm_of_counted counted few, checked_none, taken, checked_none]
  dsimp only
  rw [fieldAt_cons_zero, List.drop_succ_cons, List.drop_succ_cons, List.drop_zero, valid, byteOf_toNat]
  rfl

end

/-- R51, R62: roles taken by a RUNNING floor. -/
theorem Part.takeRoles_of_running {p : Part} (rl : Nat) (spine : List Nat) (running : p.fm.state = .running) :
    p.takeRoles rl spine =
      let starts : Bool := p.pmon.auto && p.rsq.seq == .idle
      { p with
        fm := { p.fm with rl := rl, spine := spine }
        pmon := { p.pmon with
          owed := true, quiet := .stopped, monitor := .settled, changed := if starts then false else p.pmon.changed }
        rsq := if starts then
            { p.rsq with seq := .solving, requested := false, snapshot := some ⟨p.pmon.edges.map Edge.effective, false⟩ }
          else p.rsq } := by
  rw [takeRoles_eq, if_pos running, rolesChanged, notice_of_settled rfl]
  have starts : ((p.mapFm fun f => { f with rl := rl, spine := spine }).mapPmon
      fun m => { m with owed := true, quiet := .stopped, monitor := .settled }).noticeStarts
      = (p.pmon.auto && p.rsq.seq == .idle) := by
    simp [noticeStarts, running]
  rw [starts]
  rfl

theorem Part.takeRoles_slu (rl : Nat) (spine : List Nat) (p : Part) : (p.takeRoles rl spine).slu = p.slu := by
  rw [takeRoles_eq]
  split
  · rw [rolesChanged, notice_of_settled rfl]
    rfl
  · rfl

/-- Settles O16: the checks in their order; the roles taken are written, and act as one notice on a RUNNING floor. -/
theorem setRolesReplacesRoles : Obligations.SetRolesReplacesRoles := by
  unfold Obligations.SetRolesReplacesRoles
  refine ⟨fun number rl n bays s free counted few => ?refused,
    fun number rl n bays s free counted few floor notSolving roomable low high => ?taken⟩
  case refused =>
    intro refused good
    have state (status : Status)
        (h : ∀ p : Part, p.fm = s.part.fm → p.rsq = s.part.rsq → p.rolesState = some (.plain status 0)) : refused status 0 := by
      refine takeRequest_answersOnly 0x03 number _ s status 0 [] free ?_
      rintro p rfl
      exact handleSetRoles_state counted few (h _ rfl rfl)
    have fault (detail : Nat) (floor : s.part.fm.state ≠ .unconfigured) (notSolving : s.part.rsq.seq ≠ .solving)
        (h : s.part.fm.rolesFault rl.toNat (bays.map BitVec.toNat) = some detail) : refused .outOfRange detail := by
      refine takeRequest_answersOnly 0x03 number _ s .outOfRange detail [] free ?_
      rintro p rfl
      exact handleSetRoles_fault counted few (Part.rolesState_of_free floor notSolving) h
    have entry (i : Nat) : (bays.map BitVec.toNat).getD i 0 = (bays.getD i 0).toNat := by
      simp [List.getD_eq_getElem?_getD, List.getElem?_map]
      cases bays[i]? <;> rfl
    refine ⟨fun noFloor => state .notReady fun p fm _ => Part.rolesState_of_unconfigured (by rwa [fm]),
      fun floor solving => state .busy fun p fm rsq => Part.rolesState_of_solving (by rwa [fm]) (by rwa [rsq]),
      fun floor notSolving => ⟨fun i inside before bad => ?entry, fun allGood outside => ?limit⟩⟩
    case entry =>
      have found : s.part.fm.badRole 1 (bays.map BitVec.toNat) = some (i + 1 + 0x80) := by
        rw [FloorModel.badRole_first (i := i) (by simpa using inside) (by simpa only [entry] using before)
          (by simpa only [entry] using bad), entryDetail, Nat.add_comm 1 i]
      exact fault _ floor notSolving (by rw [FloorModel.rolesFault, found])
    case limit =>
      have found : s.part.fm.badRole 1 (bays.map BitVec.toNat) = none := by
        refine FloorModel.badRole_of_good (fun b mem => ?_) 1
        obtain ⟨i, inside, rfl⟩ := List.mem_iff_getElem.1 mem
        have inside' : i < bays.length := by simpa using inside
        have isGood := allGood i inside'
        simpa [good, List.getD_eq_getElem?_getD, inside'] using isGood
      refine fault 1 floor notSolving ?_
      rw [FloorModel.rolesFault, found]
      exact if_pos outside
  case taken =>
    have valid : s.part.fm.rolesFault rl.toNat (bays.map BitVec.toNat) = none := by
      rw [FloorModel.rolesFault, FloorModel.badRole_of_good]
      · exact if_neg (by omega)
      · intro b mem
        obtain ⟨x, memX, rfl⟩ := List.mem_map.1 mem
        exact roomable x memX
    obtain ⟨t, runs, answers, keeps, eq⟩ := takeRequest_answers 0x03 number _ s _ .done 0 _ free
      (handleSetRoles_done counted few (Part.rolesState_of_free floor notSolving) valid) (Part.takeRoles_slu ..)
    refine ⟨t, spineOf (bays.map BitVec.toNat), runs, answers, keeps, spineOf_sorted _, fun b => ?spine, fun survey => ?survey,
      fun running => ?running⟩
    case spine =>
      rw [mem_spineOf, List.mem_map]
    case survey =>
      rw [Part.takeRoles_eq, if_neg] at eq
      · exact eq
      · exact fun running => by cases survey.symm.trans running
    case running =>
      rw [Part.takeRoles_of_running] at eq
      · exact eq
      · exact running

end Sys2Proof.Machine

/-!
Zones and lighting: what the rewriting of one zone does (R135), the exact effect of a hand-over on the drive-pending set (R31), and the
obligations on SET ZONE, READ ZONE, occupied flags and keys, the vacancy timer and the fade tick; with PASS THROUGH (R194).
-/
namespace Sys2Proof.Machine

/-! ### PASS THROUGH (R194) -/

/-- R36, R37: a request placed in the slot takes a free bus at once. -/
theorem Part.kickBus_pass {p : Part} {x : PassRequest} (floor : p.fm.state ≠ .unconfigured) (slot : p.cbm.passSlot = some x) :
    p.kickBus = p.mapCbm fun c => { c with bus := match c.bus with
      | .quiet => .sending (.pass x.bay x.body) false
      | other => other } := by
  have same (bus : Bus) (h : p.cbm.bus = bus) : p = p.mapCbm fun c => { c with bus := bus } := by
    rw [← h]
    rfl
  unfold kickBus
  cases bus : p.cbm.bus with
  | quiet =>
    dsimp only
    rw [arbitrate, grantWith_pass floor slot]
    simp only [mapCbm, bus]
  | hold void | sending y void | receiving y void chars =>
    dsimp only
    conv_lhs => rw [same _ bus]
    simp only [mapCbm, bus]

theorem handlePassThrough_taken {p : Part} {b : Byte} {raw : List Byte} (floor : p.fm.state ≠ .unconfigured)
    (roomable : (p.fm.node? b.toNat).isSome = true) (long : 1 ≤ raw.length) (short : raw.length ≤ 12) :
    handlePassThrough (b :: raw) p = (p.mapCbm fun c => { c with
        passSlot := some ⟨b.toNat, raw⟩
        bus := match c.bus with
          | .quiet => .sending (.pass b.toNat raw) false
          | other => other }, none) := by
  have noFault : p.passFault (b :: raw) = none := by
    rw [Part.passFault, if_neg (by rw [List.length_cons]; omega), if_neg floor]
    exact if_pos roomable
  have kicked : (p.mapCbm fun c => { c with passSlot := some ⟨b.toNat, raw⟩ }).kickBus = _ :=
    Part.kickBus_pass floor rfl
  rw [handlePassThrough, noFault]
  exact congrArg (fun q => (q, none)) kicked

/-- Settles O33: a refused one by its first fault; a taken one goes to the slot, and its reply waits. -/
theorem passThroughWaitsForExchange : Obligations.PassThroughWaitsForExchange := by
  unfold Obligations.PassThroughWaitsForExchange
  refine ⟨fun number body s free => ?refused, fun number b raw s free empty floor roomable long short => ?taken⟩
  case refused =>
    intro refused
    have fault (status : Status) (detail : Nat)
        (h : ∀ p : Part, p.fm = s.part.fm → p.passFault body = some (.plain status detail)) : refused status detail := by
      refine takeRequest_refused free fun p same => ?_
      rw [handlePassThrough, h p (by rw [same])]
    refine ⟨fun badLength => fault _ _ fun p _ => if_pos badLength, fun long short noFloor => fault _ _ fun p same => ?_,
      fun long short floor core => fault _ _ fun p same => ?_⟩
    · rw [Part.passFault, if_neg (by omega), if_pos (by rw [same]; exact noFloor)]
    · have missing : p.fm.node? (fieldAt body 0) = none := by rwa [same]
      rw [Part.passFault, if_neg (by omega), if_neg (by rw [same]; exact floor), missing]
      rfl
  case taken =>
    generalize link : ({ s.part.slu with assembler := .hunting, inFlight := some ⟨0x12, number⟩ } : Slu) = u
    have handled := handlePassThrough_taken (p := { s.part with slu := u }) floor roomable long short
    have runs : exec (.passThrough number (b :: raw)) s = .next { s with part :=
        { s.part with
          slu := u.choose
          cbm := { s.part.cbm with
            passSlot := some ⟨b.toNat, raw⟩
            bus := match s.part.cbm.bus with
              | .quiet => .sending (.pass b.toNat raw) false
              | other => other } } } := by
      simp only [exec, execPassThrough]
      rw [Part.takeRequest_free free, link, handled]
      rfl
    obtain ⟨assembler, inFlight, replySlot, -⟩ := u.choose_keeps
    refine ⟨_, runs, ?_, ?_, ?_, rfl⟩
    · rw [inFlight, ← link]
    · rw [replySlot, ← link]
      exact empty
    · rw [assembler, ← link]

/-! ### A zone's record rewritten and its members retargeted (R135) -/

theorem Part.retargetZone_of_running {p : Part} {tag : Nat} {z : Zone} (running : p.fm.state = .running)
    (zone : p.zt.zone? tag = some z) :
    p.retargetZone tag = p.mapFm (·.mapNodes fun _ r => if r.tag = tag then { r with target := some z.target } else r) := by
  rw [retargetZone, running, zone]

theorem Part.retargetZone_of_not_running {p : Part} (tag : Nat) (floor : p.fm.state ≠ .running) : p.retargetZone tag = p := by
  unfold retargetZone
  split
  · next running _ => exact absurd running floor
  · rfl

theorem Part.retargetZone_raise (r : Report) (tag : Nat) (p : Part) :
    (p.raise r).retargetZone tag = (p.retargetZone tag).raise r := by
  unfold retargetZone
  dsimp only [raise_fm, raise_zt]
  split <;> rfl

/-- R135: a zone's record rewritten, and its members' targets with it. -/
def Part.rewriteZone (tag : Nat) (g : Zone → Zone) (p : Part) : Part := (p.mapZt (·.modifyZone tag g)).retargetZone tag

/-- Outside the bays' records and the zone table, nothing changes. -/
theorem Part.rewriteZone_eq (tag : Nat) (g : Zone → Zone) (p : Part) :
    p.rewriteZone tag g =
      { p with zt := p.zt.modifyZone tag g, fm := { p.fm with bays := (p.rewriteZone tag g).fm.bays } } := by
  unfold rewriteZone retargetZone
  split <;> rfl

theorem Part.rewriteZone_frame (tag : Nat) (g : Zone → Zone) (p : Part) :
    p.rewriteZone tag g = { p with zt := p.zt.modifyZone tag g, fm := (p.rewriteZone tag g).fm } := by
  unfold rewriteZone retargetZone
  split <;> rfl

theorem Part.rewriteZone_shape (tag : Nat) (g : Zone → Zone) (p : Part) :
    p.rewriteZone tag g = { p with zt := (p.rewriteZone tag g).zt, fm := (p.rewriteZone tag g).fm } := by
  unfold rewriteZone retargetZone
  split <;> rfl

@[simp] theorem Part.rewriteZone_zt (tag : Nat) (g : Zone → Zone) (p : Part) :
    (p.rewriteZone tag g).zt = p.zt.modifyZone tag g := by rw [rewriteZone_eq]

@[simp] theorem Part.rewriteZone_slu (tag : Nat) (g : Zone → Zone) (p : Part) : (p.rewriteZone tag g).slu = p.slu := by
  rw [rewriteZone_eq]

theorem Part.rewriteZone_fm_of_not_running {p : Part} (tag : Nat) (g : Zone → Zone) (floor : p.fm.state ≠ .running) :
    (p.rewriteZone tag g).fm = p.fm := by
  rw [rewriteZone, retargetZone_of_not_running]
  · rfl
  · exact floor

theorem Zt.zone?_modifyZone_some {t : Zt} {tag : Nat} {z : Zone} {g : Zone → Zone} (keeps : ∀ z, (g z).tag = z.tag)
    (zone : t.zone? tag = some z) (other : Nat) :
    (t.modifyZone tag g).zone? other = if other = tag then some (g z) else t.zone? other := by
  rw [zone?_modifyZone tag g keeps, zone]
  rfl

section
variable {p : Part} {tag : Nat} {z : Zone} {g : Zone → Zone} (keeps : ∀ z, (g z).tag = z.tag) (zone : p.zt.zone? tag = some z)
include keeps zone

theorem Part.rewriteZone_node? (running : p.fm.state = .running) (b : Nat) :
    (p.rewriteZone tag g).fm.node? b =
      (p.fm.node? b).map fun r => if r.tag = tag then { r with target := some (g z).target } else r := by
  have zone' : (p.mapZt (·.modifyZone tag g)).zt.zone? tag = some (g z) := by
    rw [mapZt_zt, Zt.zone?_modifyZone tag g keeps, if_pos rfl, zone]
    rfl
  have running' : (p.mapZt (·.modifyZone tag g)).fm.state = .running := running
  rw [rewriteZone, retargetZone_of_running running' zone', mapFm_fm, FloorModel.node?_mapNodes]
  rfl

end

/-- R135: the target as the statements give it. -/
theorem Zone.target_eq (z : Zone) :
    z.target = if z.manualOff then 0 else if z.occupancy = .occupied then z.settings.occupiedLevel else z.settings.standbyLevel := by
  unfold target
  cases z.occupancy <;> rfl

/-! ### SET ZONE (R186) -/

section
variable {p : Part} {body : List Byte}

theorem handleSetZone_badForm (len : body.length ≠ 12) : handleSetZone body p = (p, .plain .badForm 0) := by
  rw [handleSetZone, lengthIs_of_ne len, checked_some]

variable (len : body.length = 12)
include len

theorem handleSetZone_notReady (noFloor : p.fm.state = .unconfigured) : handleSetZone body p = (p, .plain .notReady 0) := by
  rw [handleSetZone, lengthIs_of_eq len, checked_none, Part.configured_of_unconfigured noFloor, checked_some]

theorem handleSetZone_noSuch (floor : p.fm.state ≠ .unconfigured) (missing : p.zt.zone? (body.getD 0 0).toNat = none) :
    handleSetZone body p = (p, .plain .noSuch 1) := by
  rw [handleSetZone, lengthIs_of_eq len, checked_none, Part.configured_of_floor floor, checked_none]
  dsimp only [fieldAt]
  rw [missing]

end

theorem handleSetZone_done {p : Part} {z : Zone} (tag oh ol sh sl vh vl heat cool gain fh fl : Byte)
    (floor : p.fm.state ≠ .unconfigured) (zone : p.zt.zone? tag.toNat = some z) :
    let settings : Settings := Settings.clamped
      ⟨word16 oh ol, word16 sh sl, word16 vh vl, heat.toNat, cool.toNat, gain.toNat, word16 fh fl⟩
    handleSetZone [tag, oh, ol, sh, sl, vh, vl, heat, cool, gain, fh, fl] p =
      (p.rewriteZone tag.toNat fun z => { z with settings := settings }, .done (tag :: settings.fields)) := by
  intro settings
  rw [handleSetZone, lengthIs_of_eq (by rfl), checked_none, Part.configured_of_floor floor, checked_none, fieldAt_cons_zero]
  dsimp only
  rw [zone, byteOf_toNat]
  rfl

/-- Settles O25: the refusals in their order; a taken one is one zone's record rewritten. -/
theorem setZoneClampsAndRetargets : Obligations.SetZoneClampsAndRetargets := by
  unfold Obligations.SetZoneClampsAndRetargets
  refine ⟨fun number body s free len => ?badForm, fun number body s free len => ⟨fun noFloor => ?notReady, fun floor missing => ?noSuch⟩,
    fun number tag oh ol sh sl vh vl heat cool gain fh fl z s free floor zone => ?done⟩
  case badForm =>
    exact takeRequest_answersOnly 0x09 number _ s .badForm 0 [] free fun p _ => handleSetZone_badForm len
  case notReady =>
    exact takeRequest_answersOnly 0x09 number _ s .notReady 0 [] free fun p same => handleSetZone_notReady len (same ▸ noFloor)
  case noSuch =>
    exact takeRequest_answersOnly 0x09 number _ s .noSuch 1 [] free fun p same =>
      handleSetZone_noSuch len (same ▸ floor) (same ▸ missing)
  case done =>
    intro occupied standby delay heatC coolC gainC fade z' target
    obtain ⟨t, runs, answers, keeps, eq⟩ := takeRequest_answers 0x09 number _ s _ .done 0 _ free
      (handleSetZone_done tag oh ol sh sl vh vl heat cool gain fh fl floor zone) (Part.rewriteZone_slu ..)
    generalize link : ({ s.part.slu with assembler := .hunting, inFlight := some ⟨0x09, number⟩ } : Slu) = u at eq
    generalize settings : (Settings.clamped ⟨word16 oh ol, word16 sh sl, word16 vh vl, heat.toNat, cool.toNat, gain.toNat, word16 fh fl⟩)
      = held at eq answers
    have written : held = ⟨occupied, standby, delay, heatC, coolC, gainC, fade⟩ := by
      rw [← settings]
      simp only [Settings.clamped, clamp, word16, Nat.zero_max, occupied, standby, delay, heatC, coolC, gainC, fade]
      congr 1
      omega
    have zt : t.part.zt = s.part.zt.modifyZone tag.toNat fun z => { z with settings := held } := by
      rw [eq, Part.rewriteZone_zt]
    have fm : t.part.fm = (({ s.part with slu := u } : Part).rewriteZone tag.toNat fun z => { z with settings := held }).fm := by
      rw [eq]
    refine ⟨t, runs, ?_, keeps, ?_, by rw [zt]; rfl, by rw [zt]; rfl, fun other => ?_, fun survey => ?_, fun running b r node => ?_⟩
    · rw [written] at answers
      simpa only [Settings.fields, List.append_assoc, List.cons_append, List.nil_append] using answers
    · refine eq.trans ?_
      rw [fm, zt]
      exact congrArg (fun q : Part => ({ s with part := { q with slu := t.part.slu } } : State))
        (Part.rewriteZone_frame tag.toNat (fun z => { z with settings := held }) { s.part with slu := u })
    · rw [zt, written]
      exact Zt.zone?_modifyZone_some (by intro z; rfl) zone other
    · rw [fm, Part.rewriteZone_fm_of_not_running]
      exact fun running => by cases survey.symm.trans running
    · have tagged : ({ z with settings := held } : Zone).target = target := by
        rw [written]
        exact Zone.target_eq z'
      have rewritten := Part.rewriteZone_node? (p := { s.part with slu := u }) (g := fun z => { z with settings := held })
        (fun _ => rfl) zone running b
      rw [tagged] at rewritten
      rw [fm, rewritten]
      exact congrArg (Option.map _) node

/-! ### READ ZONE (R187) -/

theorem bayOrZero_eq (o : Option Nat) : bayOrZero o = (o.map byteOf).getD 0 := by
  cases o <;> rfl

theorem handleReadZone_notReady (tag : Byte) {p : Part} (noFloor : p.fm.state = .unconfigured) :
    handleReadZone [tag] p = (p, .plain .notReady 0) := by
  rw [handleReadZone, lengthIs_of_eq (by rfl), checked_none, Part.configured_of_unconfigured noFloor, checked_some]

theorem handleReadZone_noSuch {p : Part} {tag : Byte} (floor : p.fm.state ≠ .unconfigured) (missing : p.zt.zone? tag.toNat = none) :
    handleReadZone [tag] p = (p, .plain .noSuch 1) := by
  rw [handleReadZone, lengthIs_of_eq (by rfl), checked_none, Part.configured_of_floor floor, checked_none, fieldAt_cons_zero,
    missing]

theorem handleReadZone_done {p : Part} {z : Zone} (tag : Byte) (floor : p.fm.state ≠ .unconfigured)
    (zone : p.zt.zone? tag.toNat = some z) :
    handleReadZone [tag] p =
      (if z.vacancy.isRunning then p.draw else p,
        .done (z.fields (p.zt.pinnedTo z.tag)
          (vacancyRemaining p.fm.clock z.settings.vacancyDelay (Config.secondSlack p.fresh) z.vacancy))) := by
  rw [handleReadZone, lengthIs_of_eq (by rfl), checked_none, Part.configured_of_floor floor, checked_none, fieldAt_cons_zero, zone]

/-- R103, R187: what the free value settles of the time remaining. -/
theorem vacancyRemaining_spec (now : Clock) (delay : Nat) (slack : Fin 3) (timer : Timer) :
    match timer with
    | .stopped => vacancyRemaining now delay slack timer = 0
    | .held => vacancyRemaining now delay slack timer = delay
    | .running since span =>
      let remaining := vacancyRemaining now delay slack timer
      let counted := (now - since).toNat
      remaining ≤ span ∧ span ≤ remaining + counted + 1 ∧ (remaining = 0 ∨ remaining + counted ≤ span + 1) := by
  cases timer with
  | stopped | held => rfl
  | running since span =>
    have bound : slack.val < 3 := slack.isLt
    simp only [vacancyRemaining, secondsSince]
    omega

/-- Settles O26: past the checks the reply carries the zone's fields, and a running timer draws one free value. -/
theorem readZoneShowsRecord : Obligations.ReadZoneShowsRecord := by
  unfold Obligations.ReadZoneShowsRecord
  refine ⟨fun number tag s free => ⟨fun noFloor => ?notReady, fun floor missing => ?noSuch⟩, fun number tag z s free floor zone => ?done⟩
  case notReady =>
    exact takeRequest_answersOnly 0x0A number _ s .notReady 0 [] free fun p same => handleReadZone_notReady tag (same ▸ noFloor)
  case noSuch =>
    exact takeRequest_answersOnly 0x0A number _ s .noSuch 1 [] free fun p same =>
      handleReadZone_noSuch (same ▸ floor) (same ▸ missing)
  case done =>
    intro or255 flag pinned
    obtain ⟨t, runs, answers, keeps, eq⟩ := takeRequest_answers 0x0A number _ s _ .done 0 _ free
      (handleReadZone_done tag floor zone) (by split <;> rfl)
    refine ⟨t, _, runs, ?_, keeps, ?_, vacancyRemaining_spec _ _ (Config.secondSlack s.part.fresh) z.vacancy⟩
    · simp only [Zone.fields, Settings.fields, bayOrZero_eq, byteOr255_eq, Zt.pinnedTo, Zt.zone?_tag _ _ _ zone, byteOf_toNat,
        List.append_assoc, List.cons_append, List.nil_append] at answers ⊢
      exact answers
    · conv_lhs => rw [eq]
      rw [eq]
      split <;> rfl

/-! ### Occupied flags and keys (R130, R139 to R141) and the vacancy timer (R131) -/

theorem Part.occupiedFlag_occupied {p : Part} {tag : Nat} {z : Zone} (zone : p.zt.zone? tag = some z) (occupied : z.occupancy = .occupied) :
    p.occupiedFlag tag true = p.mapZt (·.modifyZone tag (Zone.startOccupied p.fm.clock)) := by
  simp only [occupiedFlag, zone, occupied]

theorem Part.occupiedFlag_vacant {p : Part} {tag : Nat} {z : Zone} (zone : p.zt.zone? tag = some z) (vacant : z.occupancy = .vacant) :
    p.occupiedFlag tag true = (p.rewriteZone tag (Zone.startOccupied p.fm.clock)).raise (.occupancy tag .occupied) := by
  simp only [occupiedFlag, zone, vacant]
  exact retargetZone_raise ..

theorem Part.vacancyExpiry_of_may {p : Part} {tag : Nat} {z : Zone} (zone : p.zt.zone? tag = some z)
    (may : z.vacancy.mayExpire p.fm.clock = true) :
    p.vacancyExpiry tag =
      (p.rewriteZone tag fun z => { z with occupancy := .vacant, vacancy := .stopped, manualOff := false }).raise
        (.occupancy tag .vacant) := by
  rw [vacancyExpiry, zone]
  dsimp only
  rw [if_pos may]
  exact retargetZone_raise ..

/-- R139: the zone that a keypad's event reaches. -/
theorem Part.keypadZone_eq {p : Part} {b : Nat} {r : BayRec} (node : p.fm.node? b = some r) :
    p.keypadZone b = some (((p.zt.pins.find? fun x => x.bay == b).map Pin.tag).getD r.tag) := by
  rw [keypadZone, Zt.pinOf, node]
  cases p.zt.pins.find? fun x => x.bay == b <;> rfl

theorem Zone.press_tag (k : Key) (z : Zone) : (z.press k).tag = z.tag := by
  cases k <;> rfl

/-- R96, R140, R141: what a key does, as the statements give it. -/
theorem Zone.press_eq (k : Key) (z : Zone) :
    z.press k = match k with
      | .toggle => { z with manualOff := !z.manualOff }
      | .raise => { z with settings := { z.settings with
          occupiedLevel := min 1000 (z.settings.occupiedLevel + 100)
          standbyLevel := min (min 1000 (z.settings.occupiedLevel + 100)) z.settings.standbyLevel } }
      | .lower => { z with settings := { z.settings with
          occupiedLevel := min 1000 (z.settings.occupiedLevel - 100)
          standbyLevel := min (min 1000 (z.settings.occupiedLevel - 100)) z.settings.standbyLevel } } := by
  have clamped (x : Nat) : clamp 0 1000 x = min 1000 x := by
    rw [clamp]
    omega
  cases k with
  | toggle => rfl
  | raise | lower => simp [press, Settings.adjust, clamped]

/-- Settles O38: both are one zone's record rewritten and its members retargeted; a flag in an OCCUPIED zone restarts the timer alone. -/
theorem zoneTakesFlagsAndKeys : Obligations.ZoneTakesFlagsAndKeys := by
  unfold Obligations.ZoneTakesFlagsAndKeys
  refine ⟨fun tag z p zone => ⟨rfl, ?flag⟩, fun b tag k z r p node routed zone => ?key⟩
  case flag =>
    have starts (t : Zt) (h : t = p.zt.modifyZone tag (Zone.startOccupied p.fm.clock)) (other : Nat) :
        t.zone? other = if other = tag then
            some { z with occupancy := .occupied, vacancy := .running p.fm.clock z.settings.vacancyDelay }
          else p.zt.zone? other := by
      rw [h]
      exact Zt.zone?_modifyZone_some (by intro z; rfl) zone other
    cases occupancy : z.occupancy with
    | occupied =>
      rw [Part.occupiedFlag_occupied zone occupancy]
      exact ⟨rfl, rfl, rfl, starts _ rfl, fun _ => ⟨rfl, rfl⟩, fun vacant => by cases vacant⟩
    | vacant =>
      rw [Part.occupiedFlag_vacant zone occupancy]
      refine ⟨?_, ?_, ?_, starts _ (Part.rewriteZone_zt ..), fun occupied => (by cases occupied), fun _ => ⟨fun enabled room => ?_, fun running =>
        ⟨?_, fun b r node => ?_⟩⟩⟩
      · exact congrArg (fun q : Part => ({ q with slu := _ } : Part))
          (Part.rewriteZone_shape tag (Zone.startOccupied p.fm.clock) p)
      · rw [Part.raise_zt, Part.rewriteZone_zt]
        rfl
      · rw [Part.raise_zt, Part.rewriteZone_zt]
        rfl
      · rw [Part.raise_slu, Part.rewriteZone_slu, Slu.raise_queue _ _ _ enabled room, Part.rewriteZone_eq]
      · rw [Part.raise_fm]
        exact congrArg Part.fm (Part.rewriteZone_eq tag (Zone.startOccupied p.fm.clock) p)
      · rw [Part.raise_fm, Part.rewriteZone_node? (by intro z; rfl) zone running, node]
        rfl
  case key =>
    intro pressed target
    have event : p.keypadEvent b k = p.rewriteZone tag (Zone.press k) := by
      rw [Part.keypadEvent, Part.keypadZone_eq node, ← routed]
      rfl
    have presses : z.press k = pressed := Zone.press_eq k z
    have zt : (p.keypadEvent b k).zt = p.zt.modifyZone tag (Zone.press k) := by rw [event, Part.rewriteZone_zt]
    refine ⟨?_, by rw [zt]; rfl, by rw [zt]; rfl, fun other => ?_, fun running => ⟨?_, fun b' r' node' => ?_⟩⟩
    · rw [event]
      exact Part.rewriteZone_shape tag (Zone.press k) p
    · rw [zt, Zt.zone?_modifyZone_some (Zone.press_tag k) zone, presses]
    · rw [event]
      exact congrArg Part.fm (Part.rewriteZone_eq tag (Zone.press k) p)
    · rw [event, Part.rewriteZone_node? (Zone.press_tag k) zone running, node', presses, Zone.target_eq]
      have same : pressed.occupancy = z.occupancy := by
        rw [← presses]
        cases k <;> rfl
      rw [same]
      rfl

/-- Settles O52: the expiry may happen, and is one zone's record rewritten, reported and retargeted. -/
theorem vacancyExpiryEmptiesZone : Obligations.VacancyExpiryEmptiesZone := by
  unfold Obligations.VacancyExpiryEmptiesZone
  intro tag since span z s zone timer passed
  have may : z.vacancy.mayExpire s.part.fm.clock = true := by
    rw [timer]
    exact decide_eq_true passed
  generalize empties : (fun z : Zone => { z with occupancy := .vacant, vacancy := .stopped, manualOff := false }) = g
  have keeps (z : Zone) : (g z).tag = z.tag := by rw [← empties]
  have runs : exec (.vacancyTimerExpiry tag) s = .next { s with part := ((s.part.rewriteZone tag g).raise (.occupancy tag .vacant)).choose } := by
    rw [← empties, ← Part.vacancyExpiry_of_may zone may]
    rfl
  refine ⟨_, runs, ?_, fun other => ?_, fun running b r node => ?_, fun reportable => ?_⟩
  · exact congrArg (fun q : Part => ({ s with part := { q with slu := _ } } : State))
      (Part.rewriteZone_shape tag g s.part)
  · exact (congrArg (fun t : Zt => t.zone? other) (Part.rewriteZone_zt ..)).trans
      ((Zt.zone?_modifyZone_some keeps zone other).trans (by rw [← empties]))
  · refine (Part.rewriteZone_node? keeps zone running b).trans ?_
    rw [node, ← empties]
    rfl
  · have same : (s.part.rewriteZone tag g).fm.clock = s.part.fm.clock := by rw [Part.rewriteZone_eq]
    show Slu.queue (Slu.choose ((s.part.rewriteZone tag g).slu.raise _ (s.part.rewriteZone tag g).fm.clock)) = _
    rw [Part.rewriteZone_slu, same]
    exact Slu.raise_choose_queue (r := .occupancy tag .vacant) _ reportable

/-! ### Hand-overs (R31) and the fade tick (R137, R138) -/

/-- R31: a bay owes a drive unless it was last sent the pair it should show. -/
def Part.Owes (p : Part) (b : Nat) : Prop :=
  ∃ r, p.fm.node? b = some r ∧ ∀ pair, r.lastSent = some pair → r.shows p.fm.qmax ≠ some pair

theorem Part.mem_handOver (p : Part) (b c : Nat) :
    c ∈ (p.handOver b).cbm.drivePending ↔ c ∈ p.cbm.drivePending ∨ (c = b ∧ p.Owes c) := by
  have unowed (h : ¬ p.Owes b) : c ∈ p.cbm.drivePending ↔ c ∈ p.cbm.drivePending ∨ (c = b ∧ p.Owes c) :=
    ⟨.inl, fun either => either.elim id fun ⟨same, owes⟩ => absurd (same ▸ owes) h⟩
  unfold handOver
  cases node : p.fm.node? b with
  | none =>
    refine unowed ?_
    rintro ⟨r, held, -⟩
    cases node.symm.trans held
  | some r =>
    dsimp only
    split
    · next shown =>
      rw [Bool.and_eq_true, Option.isSome_iff_exists, beq_iff_eq] at shown
      obtain ⟨⟨pair, sent⟩, same⟩ := shown
      refine unowed ?_
      rintro ⟨r', held, differs⟩
      cases node.symm.trans held
      exact differs pair sent (same.symm.trans sent)
    · next notShown =>
      have owes : p.Owes b := by
        refine ⟨r, node, fun pair sent same => notShown ?_⟩
        rw [sent, same]
        simp
      rw [joinPending, mapCbm_cbm]
      dsimp only
      rw [mem_insertSet]
      constructor
      · rintro (rfl | mem)
        · exact .inr ⟨rfl, owes⟩
        · exact .inl mem
      · rintro (mem | ⟨rfl, -⟩)
        · exact .inr mem
        · exact .inl rfl

theorem Part.owes_congr {p q : Part} (same : q.fm = p.fm) (b : Nat) : q.Owes b ↔ p.Owes b := by
  unfold Owes
  rw [same]

theorem Part.mem_handOverAll (p : Part) (bs : List Nat) (c : Nat) :
    c ∈ (p.handOverAll bs).cbm.drivePending ↔ c ∈ p.cbm.drivePending ∨ (c ∈ bs ∧ p.Owes c) := by
  induction bs generalizing p with
  | nil => simp [handOverAll]
  | cons b bs ih =>
    refine (ih (p.handOver b)).trans ?_
    rw [mem_handOver, owes_congr (handOver_fm p b), List.mem_cons]
    tauto

/-- Hand-overs write the drive-pending set, and nothing else. -/
theorem Part.handOverAll_shape (bs : List Nat) (p : Part) :
    ∃ set, p.handOverAll bs = { p with cbm := { p.cbm with drivePending := set } } := by
  induction bs generalizing p with
  | nil => exact ⟨_, rfl⟩
  | cons b bs ih =>
    obtain ⟨set, rest⟩ := ih (p.handOver b)
    have first : ∃ set, p.handOver b = { p with cbm := { p.cbm with drivePending := set } } := by
      unfold handOver
      split
      · split <;> exact ⟨_, rfl⟩
      · exact ⟨_, rfl⟩
    obtain ⟨set', first⟩ := first
    exact ⟨set, rest.trans (by rw [first])⟩

theorem Part.handOverAll_eq (bs : List Nat) (p : Part) :
    p.handOverAll bs = { p with cbm := { p.cbm with drivePending := (p.handOverAll bs).cbm.drivePending } } := by
  obtain ⟨set, eq⟩ := p.handOverAll_shape bs
  rw [eq]

/-- R137: a level one step nearer its target. -/
theorem fadeToward_eq (step g l : Nat) :
    fadeToward step g l = if l ≤ g then (if g - l ≤ step then g else l + step) else if l - g ≤ step then g else l - step := by
  unfold fadeToward
  split_ifs <;> omega

/-- R137: a fade tick writes the level alone, where the bay has a level, a target and a zone. -/
theorem BayRec.fade_eq (t : Zt) (r : BayRec) :
    r.fade t = { r with level := match r.level, r.target, t.zone? r.tag with
      | some l, some g, some z => some (fadeToward (fadeStep z.settings.fadeRate) g l)
      | _, _, _ => r.level } := by
  obtain ⟨health, failures, cause, key, sent, inputs, tag, next, folded, moves, level, target, q⟩ := r
  cases level with
  | none => rfl
  | some l =>
    cases target with
    | none => rfl
    | some g =>
      unfold fade
      dsimp only
      cases t.zone? tag <;> rfl

theorem Part.fadeTick_of_running {p : Part} (running : p.fm.state = .running) :
    p.fadeTick = (p.mapFm (·.mapNodes fun _ r => r.fade p.zt)).handOverAll
      ((p.fm.nodes.filter fun x => levelByteDiffers x.2 (x.2.fade p.zt)).map Prod.fst) := by
  rw [fadeTick, running]

/-- Settles O53: the records by `BayRec.fade_eq`, and the bays handed over by `Part.mem_handOverAll`. -/
theorem fadeTickMovesLevels : Obligations.FadeTickMovesLevels := by
  unfold Obligations.FadeTickMovesLevels
  intro s
  refine ⟨fun floor => ?still, fun running => ?fades⟩
  case still =>
    have same : s.part.fadeTick = s.part := by
      unfold Part.fadeTick
      cases state : s.part.fm.state with
      | running => exact absurd state floor
      | survey | unconfigured => rfl
    exact congrArg (fun q => Host.Outcome.next { s with part := q }) same
  case fades =>
    intro qmax faded
    have fade (r : BayRec) : r.fade s.part.zt = { r with level := faded r } := by
      rw [BayRec.fade_eq]
      simp only [fadeToward_eq, fadeStep]
      rfl
    generalize changed : (s.part.fm.nodes.filter fun x => levelByteDiffers x.2 (x.2.fade s.part.zt)).map Prod.fst = bs
    generalize moved : (s.part.mapFm (·.mapNodes fun _ r => r.fade s.part.zt)) = p
    have runs : exec .fadeTick s = .next { s with part := p.handOverAll bs } := by
      rw [← changed, ← moved, ← Part.fadeTick_of_running running]
      rfl
    have node? (b : Nat) : p.fm.node? b = (s.part.fm.node? b).map fun r => { r with level := faded r } := by
      rw [← moved, Part.mapFm_fm, FloorModel.node?_mapNodes]
      simp only [fade]
    have faded_of_some {r : BayRec} {l : Nat} (level : r.level = some l) : ∃ l', faded r = some l' := by
      simp only [faded, level]
      split <;> exact ⟨_, rfl⟩
    have faded_of_none {r : BayRec} (level : r.level = none) : faded r = none := by
      simp only [faded, level]
    have mem_changed (b : Nat) : b ∈ bs ↔ ∃ r l l', s.part.fm.node? b = some r ∧ r.level = some l ∧ faded r = some l'
        ∧ levelByte l ≠ levelByte l' := by
      rw [← changed, List.mem_map]
      constructor
      · rintro ⟨⟨b, r⟩, mem, rfl⟩
        obtain ⟨node, differs⟩ := List.mem_filter.1 mem
        simp only [levelByteDiffers, fade, bne_iff_ne] at differs
        cases level : r.level with
        | none => exact absurd (by rw [level, faded_of_none level]) differs
        | some l =>
          obtain ⟨l', new⟩ := faded_of_some level
          rw [level, new] at differs
          exact ⟨r, l, l', (s.part.fm.mem_nodes b r).1 node, level, new, fun same => differs (congrArg some same)⟩
      · rintro ⟨r, l, l', node, level, new, differs⟩
        refine ⟨(b, r), List.mem_filter.2 ⟨(s.part.fm.mem_nodes b r).2 node, ?_⟩, rfl⟩
        simp only [levelByteDiffers, fade, bne_iff_ne, level, new]
        exact fun same => differs (Option.some.inj same)
    have owes {b : Nat} {r : BayRec} {l' : Nat} (node : s.part.fm.node? b = some r) (new : faded r = some l') :
        p.Owes b ↔ r.lastSent ≠ some ⟨levelByte l', damperByte qmax r.q⟩ := by
      have node' : p.fm.node? b = some { r with level := faded r } := by rw [node?, node]; rfl
      have qmax' : p.fm.qmax = qmax := by rw [← moved]; rfl
      have shows : ({ r with level := faded r } : BayRec).shows p.fm.qmax = some ⟨levelByte l', damperByte qmax r.q⟩ := by
        rw [BayRec.shows, qmax', new]
        rfl
      constructor
      · rintro ⟨r', held, differs⟩ sent
        cases node'.symm.trans held
        exact differs _ sent shows
      · intro differs
        exact ⟨_, node', fun pair sent same => differs (sent.trans (same.symm.trans shows))⟩
    refine ⟨_, runs, ?_, fun b r node => ?_, fun b => ?_⟩
    · have fm : (p.handOverAll bs).fm = { s.part.fm with bays := (p.handOverAll bs).fm.bays } := by
        rw [Part.handOverAll_fm, ← moved]
        rfl
      have shape : p.handOverAll bs = { s.part with
          fm := { s.part.fm with bays := (p.handOverAll bs).fm.bays }
          cbm := { s.part.cbm with drivePending := (p.handOverAll bs).cbm.drivePending } } := by
        rw [← fm, Part.handOverAll_fm]
        refine (p.handOverAll_eq bs).trans ?_
        rw [← moved]
        rfl
      exact congrArg (fun q : Part => ({ s with part := q } : State)) shape
    · dsimp only
      rw [Part.handOverAll_fm, node?, node]
      rfl
    · have before : p.cbm.drivePending = s.part.cbm.drivePending := by rw [← moved]; rfl
      refine (p.mem_handOverAll bs b).trans ?_
      rw [before, mem_changed]
      refine or_congr_right ⟨?_, ?_⟩
      · rintro ⟨⟨r, l, l', node, level, new, differs⟩, owed⟩
        exact ⟨r, l, l', node, level, new, differs, (owes node new).1 owed⟩
      · rintro ⟨r, l, l', node, level, new, differs, unsent⟩
        exact ⟨⟨r, l, l', node, level, new, differs⟩, (owes node new).2 unsent⟩

end Sys2Proof.Machine

/-!
Edges: their numbering (R2, R3), the debounce of a contact (R43), override batches (R45, R192) and what one effective change does (R48,
R49, R55).
-/
namespace Sys2Proof.Machine

/-! ### The numbering of bays and edges (R2, R3) -/

theorem rows_div {n i : Nat} (q : Nat) (lt : i < n) : (q * n + i) / n = q := by
  rw [Nat.mul_comm, Nat.mul_add_div (by omega), Nat.div_eq_of_lt lt, Nat.add_zero]

theorem rows_mod {n i : Nat} (q : Nat) (lt : i < n) : (q * n + i) % n = i := by
  exact Nat.mul_add_mod_of_lt lt

/-- Counting in rows of `n`: the row and the place of each of the first `n * m`. -/
theorem exists_row {n m k : Nat} (lt : k < n * m) : ∃ q i, k = q * n + i ∧ i < n ∧ q < m := by
  have wide : 0 < n := Nat.pos_of_mul_pos_right (Nat.lt_of_le_of_lt (Nat.zero_le _) lt)
  refine ⟨k / n, k % n, ?_, Nat.mod_lt _ wide, ?_⟩
  · rw [Nat.mul_comm]
    exact (Nat.div_add_mod k n).symm
  · rw [Nat.div_lt_iff_lt_mul wide, Nat.mul_comm]
    exact lt

section
variable {cols r c : Nat} (row : 1 ≤ r) (low : 1 ≤ c) (high : c ≤ cols)
include row low high

theorem rowOf_bayAt : rowOf cols (bayAt cols r c) = r := by
  have before : bayAt cols r c - 1 = (r - 1) * cols + (c - 1) := by rw [bayAt]; omega
  rw [rowOf, before, rows_div _ (by omega)]
  omega

omit row in
theorem colOf_bayAt : colOf cols (bayAt cols r c) = c := by
  have before : bayAt cols r c - 1 = (r - 1) * cols + (c - 1) := by rw [bayAt]; omega
  rw [colOf, before, rows_mod _ (by omega)]
  omega

theorem eastEdge_bayAt : eastEdge cols (bayAt cols r c) = if c < cols then some ((r - 1) * (cols - 1) + c) else none := by
  rw [eastEdge, rowOf_bayAt row low high, colOf_bayAt low high]

theorem southEdge_bayAt (rows : Nat) :
    southEdge cols rows (bayAt cols r c) = if r < rows then some (vertEdges cols rows + (r - 1) * cols + c) else none := by
  rw [southEdge, rowOf_bayAt row low high, colOf_bayAt low high]

omit high in
theorem edgeBays_east {rows : Nat} (inside : r ≤ rows) (west : c < cols) :
    edgeBays cols rows ((r - 1) * (cols - 1) + c) = (bayAt cols r c, bayAt cols r (c + 1)) := by
  have whole : (r - 1) * (cols - 1) + (cols - 1) = r * (cols - 1) := by
    rw [← Nat.succ_mul, Nat.succ_eq_add_one, Nat.sub_add_cancel row]
  have bound : r * (cols - 1) ≤ (cols - 1) * rows := by
    rw [Nat.mul_comm]
    exact Nat.mul_le_mul_left _ inside
  have before : (r - 1) * (cols - 1) + c - 1 = (r - 1) * (cols - 1) + (c - 1) := by omega
  rw [edgeBays, if_pos (by rw [vertEdges]; omega), before, rows_div _ (by omega), rows_mod _ (by omega),
    Nat.sub_add_cancel row, Nat.sub_add_cancel low]

theorem edgeBays_south (rows : Nat) :
    edgeBays cols rows (vertEdges cols rows + (r - 1) * cols + c) = (bayAt cols r c, bayAt cols (r + 1) c) := by
  have before : vertEdges cols rows + (r - 1) * cols + c - vertEdges cols rows - 1 = (r - 1) * cols + (c - 1) := by omega
  rw [edgeBays, if_neg (by omega)]
  dsimp only
  rw [before, rows_div _ (by omega), rows_mod _ (by omega), Nat.sub_add_cancel row, Nat.sub_add_cancel low]

end

/-- A bay's number lies within the grid. -/
theorem bayAt_le {cols rows r c : Nat} (row : 1 ≤ r) (inside : r ≤ rows) (high : c ≤ cols) : bayAt cols r c ≤ cols * rows := by
  have whole : (r - 1) * cols + cols = r * cols := by
    rw [← Nat.succ_mul, Nat.succ_eq_add_one, Nat.sub_add_cancel row]
  have bound : r * cols ≤ cols * rows := by
    rw [Nat.mul_comm]
    exact Nat.mul_le_mul_left _ inside
  rw [bayAt]
  omega

/-- R2: every edge is the east edge or the south edge of a bay. -/
theorem exists_bay_of_edge {cols rows e : Nat} (low : 1 ≤ e) (high : e ≤ edgeCount cols rows) :
    ∃ b, 1 ≤ b ∧ b ≤ cols * rows ∧ (eastEdge cols b = some e ∨ southEdge cols rows b = some e) := by
  by_cases vertical : e ≤ vertEdges cols rows
  · obtain ⟨q, i, place, column, row⟩ := exists_row (k := e - 1) (n := cols - 1) (m := rows) (by rw [vertEdges] at vertical; omega)
    refine ⟨bayAt cols (q + 1) (i + 1), by rw [bayAt]; omega, bayAt_le (by omega) (by omega) (by omega), .inl ?_⟩
    rw [eastEdge_bayAt (by omega) (by omega) (by omega), if_pos (by omega), Nat.add_sub_cancel]
    exact congrArg some (by omega)
  · obtain ⟨q, i, place, column, row⟩ := exists_row (k := e - vertEdges cols rows - 1) (n := cols) (m := rows - 1)
      (by rw [edgeCount] at high; omega)
    refine ⟨bayAt cols (q + 1) (i + 1), by rw [bayAt]; omega, bayAt_le (by omega) (by omega) (by omega), .inr ?_⟩
    rw [southEdge_bayAt (by omega) (by omega) (by omega), if_pos (by omega), Nat.add_sub_cancel]
    exact congrArg some (by omega)

/-! ### The debounce (R43) -/

theorem Edge.contact_of_agrees {sr : Nat} {present : Bool} {x : Edge} (agrees : x.settled = settledBy present) :
    x.contact sr present = { x with raw := if present then .present else .absent, candidate := none } := by
  rw [contact]
  exact if_pos agrees

theorem Edge.contact_of_reached {sr : Nat} {present : Bool} {x : Edge} (differs : x.settled ≠ settledBy present)
    (reached : sr ≤ candidateCount present x.candidate) :
    x.contact sr present =
      { x with raw := if present then .present else .absent, settled := settledBy present, candidate := none } := by
  rw [contact]
  exact (if_neg differs).trans (if_pos reached)

theorem Edge.contact_of_counted {sr : Nat} {present : Bool} {x : Edge} (differs : x.settled ≠ settledBy present)
    (counted : candidateCount present x.candidate < sr) :
    x.contact sr present = { x with
      raw := if present then .present else .absent, candidate := some ⟨present, candidateCount present x.candidate⟩ } := by
  rw [contact]
  exact (if_neg differs).trans (if_neg (Nat.not_le.2 counted))

/-- Settles O37: the bays and edges by their row and column, every edge by the division that numbers it, a contact by its three
cases. -/
theorem contactDebouncesEdge : Obligations.ContactDebouncesEdge := by
  unfold Obligations.ContactDebouncesEdge
  refine ⟨fun cols rows r c row inside low high => ?bays, fun cols rows => ⟨rfl, fun e low high => exists_bay_of_edge low high⟩,
    fun sr present x => ?contact⟩
  case bays =>
    intro b nv
    refine ⟨eastEdge_bayAt row low high, southEdge_bayAt row low high rows, fun west => edgeBays_east row low inside west, fun north => ?_⟩
    have below : bayAt cols (r + 1) c = b + cols := by
      have whole : (r - 1) * cols + cols = r * cols := by
        rw [← Nat.succ_mul, Nat.succ_eq_add_one, Nat.sub_add_cancel row]
      rw [bayAt, Nat.add_sub_cancel]
      omega
    exact (edgeBays_south row low high rows).trans (by rw [below]; rfl)
  case contact =>
    exact ⟨Edge.contact_of_agrees, Edge.contact_of_reached, Edge.contact_of_counted⟩

/-! ### Effective changes (R48, R49, R55) -/

/-- R55: the changed-since-snapshot flag set where a solve is running. -/
def Pmon.sawChange (solving : Bool) (m : Pmon) : Pmon := { m with changed := m.changed || solving }

/-- An effective change concerns the monitor alone. -/
theorem Part.effectiveChange_eq (e : Nat) (now : EdgeState) (p : Part) :
    p.effectiveChange e now = p.mapPmon fun m =>
      let m := m.sawChange (p.rsq.seq == .solving)
      if p.fm.state = .running then (m.noteChange e now).stir p.fm.clock else m := by
  have moved (q : Part) (saw : q = p.mapPmon (Pmon.sawChange (p.rsq.seq == .solving))) :
      (match q.fm.state with
        | .running => q.mapPmon fun m => (m.noteChange e now).stir q.fm.clock
        | .survey => q
        | .unconfigured => q) = p.mapPmon fun m =>
          let m := m.sawChange (p.rsq.seq == .solving)
          if p.fm.state = .running then (m.noteChange e now).stir p.fm.clock else m := by
    subst saw
    dsimp only [mapPmon_fm]
    cases p.fm.state <;> rfl
  have unseen : p = p.mapPmon (Pmon.sawChange false) := by
    simp only [mapPmon, Pmon.sawChange, Bool.or_false]
  refine moved _ ?_
  cases p.rsq.seq with
  | solving => simp only [mapPmon, Pmon.sawChange, beq_self_eq_true, Bool.or_true]
  | idle | cutting => exact unseen

theorem Part.effectiveChange_of_running (e : Nat) (now : EdgeState) {p : Part} (running : p.fm.state = .running) :
    p.effectiveChange e now =
      p.mapPmon fun m => ((m.sawChange (p.rsq.seq == .solving)).noteChange e now).stir p.fm.clock := by
  rw [effectiveChange_eq]
  simp only [running, if_true]

theorem Pmon.noteChange_edges (e : Nat) (now : EdgeState) (m : Pmon) : (m.noteChange e now).edges = m.edges := by
  unfold noteChange
  split
  · split <;> rfl
  · rfl

theorem Pmon.stir_edges (now : Clock) (m : Pmon) : (m.stir now).edges = m.edges := by
  unfold stir
  split
  · split
    · split <;> rfl
    · rfl
    · rfl
  · rfl

theorem Part.effectiveChange_edges (e : Nat) (now : EdgeState) (p : Part) : (p.effectiveChange e now).pmon.edges = p.pmon.edges := by
  rw [effectiveChange_eq, mapPmon_pmon]
  dsimp only
  split
  · rw [Pmon.stir_edges, Pmon.noteChange_edges]
    rfl
  · rfl

/-- The edge record that a rewriting writes (R42). -/
def Edge.rewritten (g : Edge → Edge) (x : Edge) : Edge := { g x with effective := (g x).effectiveOf }

theorem Part.rewriteEdge_of_edge {p : Part} {e : Nat} {x : Edge} (held : p.pmon.edge? e = some x) (g : Edge → Edge) :
    p.rewriteEdge e g =
      if (x.rewritten g).effective = x.effective then p.mapPmon (·.modifyEdge e fun _ => x.rewritten g)
      else (p.mapPmon (·.modifyEdge e fun _ => x.rewritten g)).effectiveChange e (x.rewritten g).effective := by
  rw [rewriteEdge, held]
  rfl

theorem Part.rewriteEdge_of_none {p : Part} {e : Nat} (noEdge : p.pmon.edge? e = none) (g : Edge → Edge) : p.rewriteEdge e g = p := by
  rw [rewriteEdge, noEdge]

/-- A rewritten edge concerns the monitor alone. -/
theorem Part.rewriteEdge_shape (e : Nat) (g : Edge → Edge) (p : Part) :
    p.rewriteEdge e g = { p with pmon := (p.rewriteEdge e g).pmon } := by
  cases held : p.pmon.edge? e with
  | none => rw [rewriteEdge_of_none held]
  | some x =>
    rw [rewriteEdge_of_edge held]
    split
    · rfl
    · rw [effectiveChange_eq]
      rfl

/-- R42: a rewritten edge is read as rewritten, and the others as they were. -/
theorem Part.rewriteEdge_edge? (e : Nat) (g : Edge → Edge) (p : Part) (i : Nat) :
    (p.rewriteEdge e g).pmon.edge? i = if i = e then (p.pmon.edge? e).map (Edge.rewritten g) else p.pmon.edge? i := by
  have reads (m m' : Pmon) (same : m.edges = m'.edges) : m.edge? i = m'.edge? i := by
    unfold Pmon.edge?
    rw [same]
  cases held : p.pmon.edge? e with
  | none =>
    rw [rewriteEdge_of_none held]
    split
    · next same => rw [same, held]; rfl
    · rfl
  | some x =>
    have written : (p.pmon.modifyEdge e fun _ => x.rewritten g).edge? i
        = if i = e then some (x.rewritten g) else p.pmon.edge? i := by
      rw [Pmon.edge?_modifyEdge]
      split
      · next same => rw [same, held]; rfl
      · rfl
    rw [rewriteEdge_of_edge held]
    split
    · exact written
    · exact (reads _ _ (effectiveChange_edges ..)).trans written

theorem Part.rewriteEdge_length (e : Nat) (g : Edge → Edge) (p : Part) :
    (p.rewriteEdge e g).pmon.edges.length = p.pmon.edges.length := by
  cases held : p.pmon.edge? e with
  | none => rw [rewriteEdge_of_none held]
  | some x =>
    rw [rewriteEdge_of_edge held]
    split
    · exact mapFrom_length ..
    · rw [effectiveChange_edges]
      exact mapFrom_length ..

/-! ### Override batches (R45, R192) -/

/-- The override that a good entry's action asks for. -/
def overrideAsked (action : Nat) : Override := if action = 1 then .forceWall else if action = 2 then .forceOpen else .none

theorem Override.ofAction_of_le {action : Nat} (le : action ≤ 2) : Override.ofAction action = some (overrideAsked action) := by
  interval_cases action <;> rfl

theorem Override.ofAction_of_gt {action : Nat} (gt : 2 < action) : Override.ofAction action = Option.none := by
  match action, gt with
  | action + 3, _ => rfl

/-- An edge as an override entry leaves it. -/
def Edge.overridden (action : Nat) (x : Edge) : Edge :=
  { x with
    override := overrideAsked action
    effective := if action = 1 then .walled else if action = 2 then .opened else x.settled }

theorem Edge.rewritten_override {action : Nat} (x : Edge) :
    x.rewritten (fun x => { x with override := overrideAsked action }) = x.overridden action := by
  unfold rewritten overridden effectiveOf overrideAsked
  split_ifs <;> rfl

/-- R192: a good entry names a SENSED edge and an action that is one. -/
def Part.GoodEntry (p : Part) (x : Nat × Nat) : Prop := (∃ e, p.pmon.edge? x.1 = some e ∧ e.kind = .sensed) ∧ x.2 ≤ 2

/-- R192: the cause of an entry that is not good. -/
def Part.entryCause (p : Part) (x : Nat × Nat) : Nat :=
  match p.pmon.edge? x.1 with
  | none => 1
  | some e => if e.kind = .fixed then 2 else 3

theorem Part.badEntry_of_good {p : Part} {x : Nat × Nat} (good : p.GoodEntry x) : p.badEntry x = none := by
  obtain ⟨⟨e, held, sensed⟩, le⟩ := good
  rw [badEntry, held]
  dsimp only
  rw [sensed, Override.ofAction_of_le le]
  rfl

theorem Part.badEntry_of_bad {p : Part} {x : Nat × Nat} (bad : ¬ p.GoodEntry x) : p.badEntry x = some (p.entryCause x) := by
  unfold badEntry entryCause
  cases held : p.pmon.edge? x.1 with
  | none => rfl
  | some e =>
    dsimp only
    cases kind : e.kind with
    | fixed => rfl
    | sensed =>
      have gt : 2 < x.2 := by
        by_contra le
        exact bad ⟨⟨e, held, kind⟩, by omega⟩
      rw [Override.ofAction_of_gt gt]
      rfl

section
variable {p : Part} {x : Nat × Nat}

theorem Part.applyOverride_of_good (good : p.GoodEntry x) :
    p.applyOverride x = p.rewriteEdge x.1 fun y => { y with override := overrideAsked x.2 } := by
  rw [applyOverride, Override.ofAction_of_le good.2]

theorem Part.applyOverride_edge? (good : p.GoodEntry x) (e : Nat) :
    (p.applyOverride x).pmon.edge? e = if e = x.1 then (p.pmon.edge? e).map (Edge.overridden x.2) else p.pmon.edge? e := by
  rw [applyOverride_of_good good, rewriteEdge_edge?]
  split
  · next same =>
    rw [same]
    exact congrArg (fun g => Option.map g _) (funext fun y => y.rewritten_override)
  · rfl

/-- An entry applied leaves which edges there are, and their kinds. -/
theorem Part.applyOverride_kind (good : p.GoodEntry x) (e : Nat) :
    ((p.applyOverride x).pmon.edge? e).map Edge.kind = (p.pmon.edge? e).map Edge.kind := by
  rw [applyOverride_edge? good]
  split
  · rw [Option.map_map]
    rfl
  · rfl

end

/-- Whether an entry is good, and its cause where it is not, depend on the edges' kinds alone. -/
theorem Part.goodEntry_congr {p q : Part} (kinds : ∀ e, (q.pmon.edge? e).map Edge.kind = (p.pmon.edge? e).map Edge.kind) (x : Nat × Nat) :
    (q.GoodEntry x ↔ p.GoodEntry x) ∧ q.entryCause x = p.entryCause x := by
  have same := kinds x.1
  unfold GoodEntry entryCause
  cases held : p.pmon.edge? x.1 with
  | none =>
    rw [held, Option.map_none, Option.map_eq_none_iff] at same
    rw [same]
    exact ⟨Iff.rfl, rfl⟩
  | some y =>
    rw [held, Option.map_some, Option.map_eq_some_iff] at same
    obtain ⟨y', held', kind⟩ := same
    rw [held']
    simp [kind]

/-- Good entries applied in order. -/
def Part.overrideAll (p : Part) (xs : List (Nat × Nat)) : Part := xs.foldl Part.applyOverride p

theorem Part.overrideAll_kind {p : Part} {xs : List (Nat × Nat)} (good : ∀ x ∈ xs, p.GoodEntry x) (e : Nat) :
    ((p.overrideAll xs).pmon.edge? e).map Edge.kind = (p.pmon.edge? e).map Edge.kind := by
  induction xs generalizing p with
  | nil => rfl
  | cons x xs ih =>
    obtain ⟨head, tail⟩ := List.forall_mem_cons.1 good
    refine (ih fun y mem => ?_).trans (applyOverride_kind head e)
    exact (goodEntry_congr (applyOverride_kind head) y).1.2 (tail y mem)

/-- R192: a batch applies its good entries up to the first that is not. -/
theorem Part.applyOverrides_good {p : Part} {good : List (Nat × Nat)} (rest : List (Nat × Nat)) (h : ∀ x ∈ good, p.GoodEntry x) :
    p.applyOverrides (good ++ rest) =
      (((p.overrideAll good).applyOverrides rest).1, ((p.overrideAll good).applyOverrides rest).2.1 + good.length,
        ((p.overrideAll good).applyOverrides rest).2.2) := by
  induction good generalizing p with
  | nil => rfl
  | cons x xs ih =>
    obtain ⟨head, tail⟩ := List.forall_mem_cons.1 h
    have rest' := ih (p := p.applyOverride x) fun y mem => (goodEntry_congr (applyOverride_kind head) y).1.2 (tail y mem)
    rw [List.cons_append, applyOverrides, badEntry_of_good head]
    dsimp only
    rw [rest']
    rfl

theorem Part.overrideAll_shape (p : Part) (xs : List (Nat × Nat)) : ∃ m, p.overrideAll xs = { p with pmon := m } := by
  induction xs generalizing p with
  | nil => exact ⟨_, rfl⟩
  | cons x xs ih =>
    obtain ⟨m, rest⟩ := ih (p.applyOverride x)
    have first : ∃ m, p.applyOverride x = { p with pmon := m } := by
      unfold applyOverride
      split
      · exact ⟨_, rewriteEdge_shape ..⟩
      · exact ⟨_, rfl⟩
    obtain ⟨m', first⟩ := first
    exact ⟨m, rest.trans (by rw [first])⟩

theorem Part.overrideAll_length (p : Part) (xs : List (Nat × Nat)) : (p.overrideAll xs).pmon.edges.length = p.pmon.edges.length := by
  induction xs generalizing p with
  | nil => rfl
  | cons x xs ih =>
    refine (ih (p.applyOverride x)).trans ?_
    unfold applyOverride
    split
    · exact rewriteEdge_length ..
    · rfl

/-- The last entry of a batch that names an edge. -/
def lastEntry (xs : List (Nat × Nat)) (e : Nat) : Option (Nat × Nat) := (xs.filter fun x => x.1 == e).getLast?

theorem lastEntry_concat (xs : List (Nat × Nat)) (x : Nat × Nat) (e : Nat) :
    lastEntry (xs ++ [x]) e = if e = x.1 then some x else lastEntry xs e := by
  unfold lastEntry
  rw [List.filter_append]
  split
  · next same => simp [same]
  · next other =>
    have unnamed : ¬ x.1 = e := fun same => other same.symm
    simp [unnamed]

/-- R45: each edge takes what the last entry that names it asks for. -/
theorem Part.overrideAll_edge? {p : Part} {xs : List (Nat × Nat)} (good : ∀ x ∈ xs, p.GoodEntry x) {e : Nat} {y : Edge}
    (held : p.pmon.edge? e = some y) :
    (p.overrideAll xs).pmon.edge? e = some (match lastEntry xs e with
      | none => y
      | some entry => y.overridden entry.2) := by
  induction xs using List.reverseRecOn with
  | nil => exact held
  | append_singleton xs x ih =>
    have before := ih fun z mem => good z (List.mem_append_left _ mem)
    have isGood : (p.overrideAll xs).GoodEntry x :=
      (goodEntry_congr (overrideAll_kind fun z mem => good z (List.mem_append_left _ mem)) x).1.2 (good x (by simp))
    have last : p.overrideAll (xs ++ [x]) = (p.overrideAll xs).applyOverride x := List.foldl_concat ..
    rw [last, applyOverride_edge? isGood, lastEntry_concat, before]
    split
    · cases lastEntry xs e <;> rfl
    · rfl

theorem overrideForm_of_ok {n : Byte} {bytes : List Byte} (low : 1 ≤ n.toNat) (high : n.toNat ≤ 48)
    (counted : bytes.length = 3 * n.toNat) : overrideForm (n :: bytes) = none :=
  if_pos ⟨low, high, congrArg (· + 1) counted⟩

theorem overrideForm_of_bad {n : Byte} {bytes : List Byte} (bad : n.toNat = 0 ∨ 48 < n.toNat ∨ bytes.length ≠ 3 * n.toNat) :
    overrideForm (n :: bytes) = some (.plain .badForm 1) := by
  refine if_neg fun ⟨low, high, counted⟩ => ?_
  rw [fieldAt_cons_zero] at low high counted
  rw [List.length_cons] at counted
  omega

theorem overrideEntries_length {k : Nat} {bytes : List Byte} (counted : bytes.length = 3 * k) : (overrideEntries bytes).length = k := by
  induction k generalizing bytes with
  | zero =>
    rw [List.length_eq_zero_iff.1 counted]
    rfl
  | succ k ih =>
    match bytes, counted with
    | hi :: lo :: action :: rest, counted =>
      rw [overrideEntries, List.length_cons, ih]
      simp only [List.length_cons] at counted
      omega

section
variable {n : Byte} {bytes : List Byte} {p : Part} (low : 1 ≤ n.toNat) (high : n.toNat ≤ 48) (counted : bytes.length = 3 * n.toNat)
include low high counted

theorem handleOverrideEdges_notReady (noFloor : p.fm.state = .unconfigured) :
    handleOverrideEdges (n :: bytes) p = (p, .plain .notReady 0) := by
  rw [handleOverrideEdges, overrideForm_of_ok low high counted, checked_none, Part.configured_of_unconfigured noFloor, checked_some]

variable (floor : p.fm.state ≠ .unconfigured) {good : List (Nat × Nat)} (allGood : ∀ x ∈ good, p.GoodEntry x)
include floor allGood

theorem handleOverrideEdges_done (entries : overrideEntries bytes = good) :
    handleOverrideEdges (n :: bytes) p = (p.overrideAll good, .done [n, 0, 0]) := by
  have count : good.length = n.toNat := by rw [← entries, overrideEntries_length counted]
  have batch := Part.applyOverrides_good [] allGood
  rw [List.append_nil] at batch
  rw [handleOverrideEdges, overrideForm_of_ok low high counted, checked_none, Part.configured_of_floor floor, checked_none]
  dsimp only
  rw [show (n :: bytes).drop 1 = bytes from rfl, entries, batch]
  dsimp only [Part.applyOverrides]
  rw [Nat.zero_add, count, byteOf_toNat]

theorem handleOverrideEdges_partly {x : Nat × Nat} {tail : List (Nat × Nat)} (entries : overrideEntries bytes = good ++ x :: tail)
    (bad : ¬ p.GoodEntry x) :
    handleOverrideEdges (n :: bytes) p = (p.overrideAll good,
      ⟨.partlyDone, good.length + 1, [byteOf good.length, byteOf (x :: tail).length, byteOf (p.entryCause x)]⟩) := by
  have same := Part.goodEntry_congr (Part.overrideAll_kind allGood) x
  have stops : (p.overrideAll good).applyOverrides (x :: tail) = (p.overrideAll good, 0, some (p.entryCause x)) := by
    rw [Part.applyOverrides, Part.badEntry_of_bad (mt same.1.1 bad), same.2]
  rw [handleOverrideEdges, overrideForm_of_ok low high counted, checked_none, Part.configured_of_floor floor, checked_none]
  dsimp only
  rw [show (n :: bytes).drop 1 = bytes from rfl, entries, Part.applyOverrides_good _ allGood, stops]
  dsimp only
  rw [Nat.zero_add, List.length_append, Nat.add_sub_cancel_left]

end

/-- Settles O30: the form and the floor first; then the batch applies its good entries, and each edge takes its last one. -/
theorem overrideBatchStopsAtBadEntry : Obligations.OverrideBatchStopsAtBadEntry := by
  unfold Obligations.OverrideBatchStopsAtBadEntry
  refine ⟨fun number n bytes s free => ⟨fun bad => ?badForm, fun low high counted noFloor => ?notReady⟩,
    fun number n bytes good rest s free floor low high counted entries allGood => ?applied⟩
  case badForm =>
    refine takeRequest_answersOnly 0x0F number _ s .badForm 1 [] free fun p _ => ?_
    rw [handleOverrideEdges, overrideForm_of_bad bad, checked_some]
    rfl
  case notReady =>
    exact takeRequest_answersOnly 0x0F number _ s .notReady 0 [] free fun p same =>
      handleOverrideEdges_notReady low high counted (same ▸ noFloor)
  case applied =>
    intro asked cause last stops
    generalize taken : ({ s.part with slu := { s.part.slu with assembler := .hunting, inFlight := some ⟨0x0F, number⟩ } } : Part) = p
    have pmon : p.pmon = s.part.pmon := by rw [← taken]
    have floor' : p.fm.state ≠ .unconfigured := by rw [← taken]; exact floor
    have allGood' : ∀ x ∈ good, p.GoodEntry x := by rw [← taken]; exact allGood
    obtain ⟨m, shape⟩ := p.overrideAll_shape good
    have link : (p.overrideAll good).slu = { s.part.slu with assembler := .hunting, inFlight := some ⟨0x0F, number⟩ } := by
      rw [shape, ← taken]
    have edges {e : Nat} {x : Edge} (held : s.part.pmon.edge? e = some x) :
        (p.overrideAll good).pmon.edge? e = some (match lastEntry good e with
          | none => x
          | some entry => x.overridden entry.2) := Part.overrideAll_edge? allGood' (by rw [pmon]; exact held)
    have finish (status : Status) (detail : Nat) (fields : List Byte)
        (handled : handleOverrideEdges (n :: bytes) p = (p.overrideAll good, ⟨status, detail, fields⟩)) :
        ∃ t, exec (.overrideEdges number (n :: bytes)) s = .next t ∧ LinkKeeps s.part.slu t.part.slu
          ∧ Answers 0x0F number status detail fields t
          ∧ t = { s with part := { s.part with slu := t.part.slu, pmon := t.part.pmon } }
          ∧ t.part.pmon.edges.length = s.part.pmon.edges.length
          ∧ ∀ e x, s.part.pmon.edge? e = some x → t.part.pmon.edge? e = some (match last e with
              | none => x
              | some entry => { x with
                  override := asked entry.2
                  effective := if entry.2 = 1 then .walled else if entry.2 = 2 then .opened else x.settled }) := by
      obtain ⟨t, runs, answers, keeps, eq⟩ := takeRequest_answers 0x0F number (handleOverrideEdges (n :: bytes)) s _ status detail
        fields free (by rw [taken]; exact handled) link
      have monitor : t.part.pmon = (p.overrideAll good).pmon := by rw [eq]
      refine ⟨t, runs, keeps, answers, ?_, ?_, fun e x held => ?_⟩
      · refine eq.trans ?_
        rw [monitor, shape, ← taken]
      · rw [monitor, Part.overrideAll_length, pmon]
      · rw [monitor]
        exact edges held
    rcases stops with rfl | ⟨x, tail, rfl, bad⟩
    · rw [List.append_nil] at entries
      obtain ⟨t, runs, keeps, answers, rest⟩ := finish _ _ _ (handleOverrideEdges_done low high counted floor' allGood' entries)
      exact ⟨t, runs, keeps, fun _ => answers, fun x tail absurdRest => (by cases absurdRest), rest⟩
    · have bad' : ¬ p.GoodEntry x := by rw [← taken]; exact bad
      have cause' : p.entryCause x = cause x := by rw [← taken]; rfl
      obtain ⟨t, runs, keeps, answers, rest⟩ := finish _ _ _
        (handleOverrideEdges_partly low high counted floor' allGood' entries bad')
      rw [cause'] at answers
      refine ⟨t, runs, keeps, fun empty => (by cases empty), fun y tail' same => ?_, rest⟩
      obtain ⟨rfl, rfl⟩ := List.cons.inj same
      exact answers

/-! ### One effective change (R48, R49, R55) -/

theorem Pmon.noteChange_netChange {m : Pmon} {base : List EdgeState} (e : Nat) (now : EdgeState) (baseline : m.baseline = some base)
    (i : Nat) :
    i ∈ (m.noteChange e now).netChange ↔ if i = e then base.getD (e - 1) .unknown ≠ now else i ∈ m.netChange := by
  rw [noteChange, baseline]
  dsimp only
  split_ifs <;> simp_all

/-- R48: the note of a change writes the net change set alone. -/
theorem Pmon.noteChange_shape (e : Nat) (now : EdgeState) (m : Pmon) : ∃ set, m.noteChange e now = { m with netChange := set } := by
  unfold noteChange
  split
  · split <;> exact ⟨_, rfl⟩
  · exact ⟨_, rfl⟩

theorem Pmon.stir_of_changes {m : Pmon} (now : Clock) (some : m.netChange ≠ []) :
    m.stir now = { m with quiet := .running now m.qt, monitor := .unsettled } :=
  if_neg (by rwa [List.isEmpty_iff])

section
variable {m : Pmon} (now : Clock) (none : m.netChange = [])
include none

theorem Pmon.stir_of_unsettled (unsettled : m.monitor = .unsettled) :
    m.stir now = if m.owed then { m with quiet := .running now m.qt } else { m with quiet := .stopped, monitor := .clean } := by
  rw [stir, none, if_pos (by rfl), unsettled]

theorem Pmon.stir_of_settled (settled : m.monitor = .settled) : m.stir now = m := by
  rw [stir, none, if_pos (by rfl), settled]

end

/-- R49: the monitor and the quiet timer alone move. -/
theorem Pmon.stir_shape (now : Clock) (m : Pmon) : ∃ monitor quiet, m.stir now = { m with monitor := monitor, quiet := quiet } := by
  unfold stir
  split
  · split
    · split <;> exact ⟨_, _, rfl⟩
    · exact ⟨_, _, rfl⟩
    · exact ⟨_, _, rfl⟩
  · exact ⟨_, _, rfl⟩

/-- Settles O31: the entry is one effective change, which is the note of it and the monitor's move. -/
theorem effectiveChangeMovesMonitor : Obligations.EffectiveChangeMovesMonitor := by
  unfold Obligations.EffectiveChangeMovesMonitor
  intro number hi lo action base x new s free running baseline le e held sensed isNew differs
  generalize taken : ({ s.part with slu := { s.part.slu with assembler := .hunting, inFlight := some ⟨0x0F, number⟩ } } : Part) = p
  have pmon : p.pmon = s.part.pmon := by rw [← taken]
  have state : p.fm.state = .running := by rw [← taken]; exact running
  have clock : p.fm.clock = s.part.fm.clock := by rw [← taken]
  have rsq : p.rsq = s.part.rsq := by rw [← taken]
  have held' : p.pmon.edge? e = some x := by rw [pmon]; exact held
  have good : p.GoodEntry (e, action.toNat) := ⟨⟨x, held', sensed⟩, le⟩
  have one : action = 1 ↔ action.toNat = 1 := BitVec.toNat_eq
  have two : action = 2 ↔ action.toNat = 2 := BitVec.toNat_eq
  have effective : (x.overridden action.toNat).effective = new := by
    rw [isNew, Edge.overridden]
    simp only [one, two]
  generalize marked : (p.pmon.modifyEdge e fun _ => x.overridden action.toNat).sawChange (p.rsq.seq == .solving) = m
  have changes : p.overrideAll [(e, action.toNat)] = { p with pmon := (m.noteChange e new).stir s.part.fm.clock } := by
    show p.applyOverride (e, action.toNat) = _
    rw [Part.applyOverride_of_good good, Part.rewriteEdge_of_edge held', Edge.rewritten_override, effective, if_neg differs,
      Part.effectiveChange_of_running _ _ (p := p.mapPmon _) state, ← marked, ← clock]
    rfl
  obtain ⟨t, runs, answers, -, eq⟩ := takeRequest_answers 0x0F number (handleOverrideEdges [1, hi, lo, action]) s _ .done 0 [1, 0, 0]
    free (by
      rw [taken]
      exact handleOverrideEdges_done (by decide) (by decide) rfl (by rw [state]; decide) (List.forall_mem_singleton.2 good) rfl)
    (by rw [changes, ← taken])
  have monitor : t.part.pmon = (m.noteChange e new).stir s.part.fm.clock := by rw [eq, changes]
  obtain ⟨set, noted⟩ := m.noteChange_shape e new
  obtain ⟨monitor', quiet', stirred⟩ := (m.noteChange e new).stir_shape s.part.fm.clock
  have kept : m.netChange = s.part.pmon.netChange ∧ m.baseline = some base ∧ m.monitor = s.part.pmon.monitor
      ∧ m.quiet = s.part.pmon.quiet ∧ m.owed = s.part.pmon.owed ∧ m.auto = s.part.pmon.auto ∧ m.qt = s.part.pmon.qt
      ∧ m.changed = (s.part.pmon.changed || s.part.rsq.seq == .solving) := by
    rw [← marked, rsq, pmon]
    exact ⟨rfl, baseline, rfl, rfl, rfl, rfl, rfl, rfl⟩
  obtain ⟨netChange, base', wasMonitor, wasQuiet, owed, auto, qt, changed⟩ := kept
  have net : t.part.pmon.netChange = (m.noteChange e new).netChange := by rw [monitor, stirred]
  refine ⟨t, runs, answers, fun i => ?_, ?_, fun some => ?_, fun none unsettled unowed => ?_, fun none unsettled owing => ?_,
    fun none settled => ?_, ?_, ?_, ?_, ?_⟩
  · rw [net, Pmon.noteChange_netChange e new base', netChange]
  · rw [monitor, stirred, noted, ← changed]
  · rw [monitor, Pmon.stir_of_changes _ (by rwa [← net]), noted, ← qt]
    exact ⟨rfl, rfl⟩
  · rw [monitor, Pmon.stir_of_unsettled _ (by rwa [← net]) (by rw [noted]; exact wasMonitor.trans unsettled), if_neg]
    · exact ⟨rfl, rfl⟩
    · rw [noted]
      exact Bool.not_eq_true _ ▸ owed.trans unowed
  · rw [monitor, Pmon.stir_of_unsettled _ (by rwa [← net]) (by rw [noted]; exact wasMonitor.trans unsettled), if_pos]
    · rw [noted, ← qt]
      exact ⟨wasMonitor.trans unsettled, rfl⟩
    · rw [noted]
      exact owed.trans owing
  · rw [monitor, Pmon.stir_of_settled _ (by rwa [← net]) (by rw [noted]; exact wasMonitor.trans settled), noted]
    exact ⟨wasMonitor.trans settled, wasQuiet⟩
  · rw [monitor, stirred, noted]
    exact base'
  · rw [monitor, stirred, noted]
    exact owed
  · rw [monitor, stirred, noted]
    exact auto
  · rw [monitor, stirred, noted]
    exact qt

end Sys2Proof.Machine

/-!
The allocation's arithmetic (R155 to R158): a place-by-place reading of the shares handed out, their sum, and a bay's part of its zone's
grant.
-/
namespace Sys2Proof.Machine

/-- A choice over the places of a list that never fails is a map with places. -/
theorem filterMap_range_getElem? {α β : Type} (f : Nat → α → β) (l : List α) :
    ((List.range l.length).filterMap fun k => l[k]?.map (f k)) = l.mapIdx f := by
  induction l using List.reverseRecOn with
  | nil => rfl
  | append_singleton xs x ih =>
    have before : (List.range xs.length).filterMap (fun k => (xs ++ [x])[k]?.map (f k))
        = (List.range xs.length).filterMap fun k => xs[k]?.map (f k) := by
      refine List.filterMap_congr fun k mem => ?_
      rw [List.getElem?_append_left (List.mem_range.1 mem)]
    rw [List.length_append, List.length_singleton, List.range_succ, List.filterMap_append, before, ih, List.mapIdx_concat]
    simp

/-! ### The remainder handed out (R157) -/

/-- R156, R157: a row's grant above n × v: its share rounded down, and 1 where it is among the first `r` rounded down. -/
def shareOf (spare total r : Nat) (before : List AirRow) (row : AirRow) : Nat :=
  row.excess * spare / total
    + if roundedDown spare total row ∧ (before.filter (roundedDown spare total)).length < r then 1 else 0

theorem excess_pos_of_roundedDown {spare total : Nat} {row : AirRow} (down : roundedDown spare total row = true) : 0 < row.excess := by
  rcases Nat.eq_zero_or_pos row.excess with zero | pos
  · simp [roundedDown, zero] at down
  · exact pos

theorem handOut_cons (spare total r : Nat) (row : AirRow) (rows : List AirRow) :
    handOut spare total r (row :: rows) =
      (row.tag, row.demand - row.excess + shareOf spare total r [] row)
        :: handOut spare total (if roundedDown spare total row then r - 1 else r) rows := by
  by_cases down : roundedDown spare total row = true
  · have remains : row.excess * spare % total ≠ 0 := by simpa [roundedDown] using down
    by_cases left : 0 < r
    · rw [handOut]
      simp [shareOf, down, left, remains, excess_pos_of_roundedDown down, Nat.add_assoc]
    · have none : r = 0 := by omega
      rw [handOut]
      simp [shareOf, down, none]
  · have whole : row.excess * spare % total = 0 := by simpa [roundedDown] using down
    rw [handOut]
    simp [shareOf, down, whole]

theorem handOut_getElem? (spare total r : Nat) (rows : List AirRow) (k : Nat) :
    (handOut spare total r rows)[k]? =
      rows[k]?.map fun row => (row.tag, row.demand - row.excess + shareOf spare total r (rows.take k) row) := by
  induction rows generalizing r k with
  | nil => rfl
  | cons row rows ih =>
    rw [handOut_cons]
    cases k with
    | zero => rfl
    | succ k =>
      rw [List.getElem?_cons_succ, ih, List.getElem?_cons_succ, List.take_succ_cons]
      refine congrArg (fun f => Option.map f rows[k]?) (funext fun x => ?_)
      have moved : shareOf spare total (if roundedDown spare total row then r - 1 else r) (rows.take k) x
          = shareOf spare total r (row :: rows.take k) x := by
        by_cases down : roundedDown spare total row = true
        · rw [shareOf, shareOf, List.filter_cons_of_pos down, if_pos down, List.length_cons]
          have one_fewer (c : Nat) : c < r - 1 ↔ c + 1 < r := by omega
          simp only [one_fewer]
        · rw [shareOf, shareOf, List.filter_cons_of_neg down, if_neg down]
      rw [moved]

theorem handOut_length (spare total r : Nat) (rows : List AirRow) : (handOut spare total r rows).length = rows.length := by
  induction rows generalizing r with
  | nil => rfl
  | cons row rows ih => rw [handOut_cons, List.length_cons, ih, List.length_cons]

/-- The grants handed out sum to the minima, the shares, and as many as were rounded down while any was left. -/
theorem handOut_sum (spare total r : Nat) (rows : List AirRow) :
    ((handOut spare total r rows).map Prod.snd).sum =
      (rows.map fun row => row.demand - row.excess).sum + (rows.map fun row => row.excess * spare / total).sum
        + min r (rows.filter (roundedDown spare total)).length := by
  induction rows generalizing r with
  | nil => simp [handOut]
  | cons row rows ih =>
    rw [handOut_cons]
    simp only [List.map_cons, List.sum_cons, ih]
    by_cases down : roundedDown spare total row = true
    · rw [if_pos down, List.filter_cons_of_pos down, List.length_cons]
      simp only [shareOf, down, List.filter_nil, List.length_nil, true_and]
      split <;> omega
    · rw [if_neg down, List.filter_cons_of_neg down]
      rw [shareOf, if_neg fun both => down both.1]
      omega

/-! ### The shares against the spare budget (R155, R156) -/

/-- The shares, with what is rounded off, make up the spare budget times the total excess. -/
theorem sum_shares (spare total : Nat) (rows : List AirRow) :
    total * (rows.map fun row => row.excess * spare / total).sum + (rows.map fun row => row.excess * spare % total).sum
      = (rows.map AirRow.excess).sum * spare := by
  induction rows with
  | nil => simp
  | cons row rows ih =>
    have divided := Nat.div_add_mod (row.excess * spare) total
    simp only [List.map_cons, List.sum_cons, Nat.mul_add, Nat.add_mul]
    omega

/-- What is rounded off is less than the total for each row, and nothing for one that is not rounded down. -/
theorem sum_remainders_le {total : Nat} (spare : Nat) (pos : 0 < total) (rows : List AirRow) :
    (rows.map fun row => row.excess * spare % total).sum ≤ total * (rows.filter (roundedDown spare total)).length := by
  induction rows with
  | nil => simp
  | cons row rows ih =>
    rw [List.map_cons, List.sum_cons]
    by_cases down : roundedDown spare total row = true
    · have below := Nat.mod_lt (row.excess * spare) pos
      rw [List.filter_cons_of_pos down, List.length_cons, Nat.mul_add]
      omega
    · have whole : row.excess * spare % total = 0 := by simpa [roundedDown] using down
      rw [List.filter_cons_of_neg down, whole, Nat.zero_add]
      exact ih

section
variable {spare : Nat} {rows : List AirRow} (short : spare < (rows.map AirRow.excess).sum)
include short

theorem sum_shares_le : (rows.map fun row => row.excess * spare / (rows.map AirRow.excess).sum).sum ≤ spare := by
  have whole := sum_shares spare (rows.map AirRow.excess).sum rows
  refine Nat.le_of_mul_le_mul_left (c := (rows.map AirRow.excess).sum) ?_ (by omega)
  omega

/-- R157: there are as many zones rounded down as there is left to hand out. -/
theorem left_le_roundedDown :
    spare - (rows.map fun row => row.excess * spare / (rows.map AirRow.excess).sum).sum
      ≤ (rows.filter (roundedDown spare (rows.map AirRow.excess).sum)).length := by
  have whole := sum_shares spare (rows.map AirRow.excess).sum rows
  have off := sum_remainders_le (total := (rows.map AirRow.excess).sum) spare (by omega) rows
  have shares := sum_shares_le short
  refine Nat.le_of_mul_le_mul_left (c := (rows.map AirRow.excess).sum) ?_ (by omega)
  rw [Nat.mul_sub]
  omega

end

/-- A share and its 1 keep within the excess. -/
theorem shareOf_le {spare total : Nat} (short : spare < total) (r : Nat) (before : List AirRow) (row : AirRow) :
    shareOf spare total r before row ≤ row.excess := by
  have divided := Nat.div_add_mod (row.excess * spare) total
  have scaled : row.excess * spare ≤ row.excess * total := Nat.mul_le_mul_left _ (by omega)
  rw [shareOf]
  by_cases down : roundedDown spare total row = true
  · have remains : row.excess * spare % total ≠ 0 := by simpa [roundedDown] using down
    have below : row.excess * spare / total < row.excess := by
      refine Nat.lt_of_mul_lt_mul_left (a := total) ?_
      rw [Nat.mul_comm total row.excess]
      omega
    split <;> omega
  · have below : row.excess * spare / total ≤ row.excess := by
      have pos : 0 < total := Nat.lt_of_le_of_lt (Nat.zero_le _) short
      refine Nat.le_of_mul_le_mul_left (c := total) ?_ pos
      rw [Nat.mul_comm total row.excess]
      omega
    rw [if_neg fun both => down both.1]
    exact below

/-! ### The grants (R155 to R157) -/

theorem zoneGrants_of_covered {spare : Nat} {rows : List AirRow} (covered : (rows.map AirRow.excess).sum ≤ spare) :
    zoneGrants spare rows = rows.map fun r => (r.tag, r.demand) := if_pos covered

section
variable {v spare : Nat} {rows : List AirRow} (demands : ∀ r ∈ rows, r.demand = r.n * v + r.excess)

theorem zoneGrants_length (spare : Nat) (rows : List AirRow) : (zoneGrants spare rows).length = rows.length := by
  unfold zoneGrants
  dsimp only
  split
  · exact List.length_map ..
  · exact handOut_length ..

include demands

theorem zoneGrants_getElem?_of_short (short : spare < (rows.map AirRow.excess).sum) (k : Nat) :
    (zoneGrants spare rows)[k]? = rows[k]?.map fun row => (row.tag, row.n * v + shareOf spare (rows.map AirRow.excess).sum
      (spare - (rows.map fun row => row.excess * spare / (rows.map AirRow.excess).sum).sum) (rows.take k) row) := by
  have handed : zoneGrants spare rows = handOut spare (rows.map AirRow.excess).sum
      (spare - (rows.map fun r => r.excess * spare / (rows.map AirRow.excess).sum).sum) rows := if_neg (by omega)
  rw [handed, handOut_getElem?]
  refine Option.map_congr fun row at_k => ?_
  rw [demands row (List.mem_of_getElem? at_k), Nat.add_sub_cancel]

theorem zoneGrants_sum_of_short (short : spare < (rows.map AirRow.excess).sum) :
    ((zoneGrants spare rows).map Prod.snd).sum = (rows.map fun r => r.n * v).sum + spare := by
  have handed : zoneGrants spare rows = handOut spare (rows.map AirRow.excess).sum
      (spare - (rows.map fun r => r.excess * spare / (rows.map AirRow.excess).sum).sum) rows := if_neg (by omega)
  have minima : (rows.map fun row => row.demand - row.excess) = rows.map fun r => r.n * v :=
    List.map_congr_left fun row mem => by rw [demands row mem, Nat.add_sub_cancel]
  have shares := sum_shares_le short
  have left := left_le_roundedDown short
  rw [handed, handOut_sum, minima, Nat.min_eq_left left]
  omega

/-- R155 to R157: the machine's grants are the rules'. -/
theorem zoneGrants_eq : zoneGrants spare rows = grantsOf v spare rows := by
  refine List.ext_getElem? fun k => ?_
  rw [grantsOf, filterMap_range_getElem? (fun k row => (row.tag, if (rows.map AirRow.excess).sum ≤ spare then row.demand
    else row.n * v + row.excess * spare / (rows.map AirRow.excess).sum
      + if roundedDown spare (rows.map AirRow.excess).sum row
          ∧ ((rows.take k).filter (roundedDown spare (rows.map AirRow.excess).sum)).length
            < spare - (rows.map fun row => row.excess * spare / (rows.map AirRow.excess).sum).sum then 1 else 0)),
    List.getElem?_mapIdx]
  by_cases covered : (rows.map AirRow.excess).sum ≤ spare
  · rw [zoneGrants_of_covered covered, List.getElem?_map]
    simp only [if_pos covered]
  · rw [zoneGrants_getElem?_of_short demands (by omega)]
    simp only [if_neg covered, shareOf, Nat.add_assoc]

end

/-! ### A bay's part (R158) -/

theorem sum_first_ones (m n : Nat) : ((List.range n).map fun i => if i < m then 1 else 0).sum = min m n := by
  induction n with
  | zero => simp
  | succ n ih =>
    rw [List.range_succ, List.map_append, List.sum_append, ih, List.map_singleton, List.sum_singleton]
    split <;> omega

theorem bayGrant_sum (grant : Nat) {n : Nat} (pos : 0 < n) : ((List.range n).map (bayGrant grant n)).sum = grant := by
  have split : ((List.range n).map (bayGrant grant n)).sum
      = ((List.range n).map fun _ => grant / n).sum + ((List.range n).map fun i => if i < grant % n then 1 else 0).sum :=
    List.sum_map_add
  rw [split, sum_first_ones, List.map_const', List.sum_replicate, List.length_range, smul_eq_mul,
    Nat.min_eq_left (Nat.mod_lt _ pos).le, Nat.div_add_mod]

theorem bayGrant_eq (grant n place : Nat) : bayGrant grant n place = if place < grant % n then grant / n + 1 else grant / n := by
  rw [bayGrant]
  split <;> rfl

/-- Settles O55: the grants place by place, their sum, and each within its bounds; a bay's part summed over the places. -/
theorem allocationSpendsBudget : Obligations.AllocationSpendsBudget := by
  unfold Obligations.AllocationSpendsBudget
  refine ⟨fun v spare rows demands => ?zones, fun grant n pos => ⟨bayGrant_sum grant pos, fun place _ => bayGrant_eq grant n place⟩⟩
  case zones =>
    intro total grants down left
    refine ⟨zoneGrants_eq demands, fun covered => zoneGrants_of_covered covered, fun short => ⟨zoneGrants_length spare rows, ?_,
      zoneGrants_sum_of_short demands short, ?_⟩⟩
    · intro k row at_k
      refine (zoneGrants_getElem?_of_short demands short k).trans ?_
      rw [at_k, Option.map_some, shareOf, ← Nat.add_assoc]
      rfl
    · intro x mem
      obtain ⟨k, at_k⟩ := List.mem_iff_getElem?.1 mem
      obtain ⟨grantAt, rowAt⟩ := List.getElem?_zip_eq_some.1 at_k
      rw [zoneGrants_getElem?_of_short demands short k, rowAt, Option.map_some, Option.some.injEq] at grantAt
      have bound := shareOf_le (total := (rows.map AirRow.excess).sum) short (spare - (rows.map fun row => row.excess * spare / (rows.map AirRow.excess).sum).sum)
        (rows.take k) x.2
      have demand := demands x.2 (List.mem_of_getElem? rowAt)
      rw [← grantAt]
      dsimp only
      omega

end Sys2Proof.Machine

/-!
The allocation (R151 to R159): the climate of the manned zones, the rows and grants as the rules give them, what an allocation does as a
whole, and the obligations on the allocation timer and SET SUPPLY.
-/
namespace Sys2Proof.Machine

/-! ### The climate of a zone (R152, R153) -/

/-- The temperature and heat call depend on the floor alone. -/
theorem climateOf_congr {p q : Part} (same : q.fm = p.fm) (z : Zone) : climateOf q z = climateOf p z := by
  unfold climateOf usableTemps
  rw [same]

@[simp] theorem climateOf_tag (p : Part) (z : Zone) : (climateOf p z).tag = z.tag := rfl
@[simp] theorem climateOf_members (p : Part) (z : Zone) : (climateOf p z).members = z.members := rfl

/-- A zone that has just been given its climate keeps it. -/
theorem climateOf_idem (p : Part) (z : Zone) : climateOf p (climateOf p z) = climateOf p z := by
  unfold climateOf
  dsimp only
  split_ifs <;> rfl

/-- R153: the report of a zone whose heat call changes. -/
def heatCallReport (p : Part) (z : Zone) : Option Report :=
  if (climateOf p z).heatCall = z.heatCall then none else some (.heatCall z.tag (climateOf p z).heatCall (climateOf p z).tz)

/-- R152, R153: one zone's climate, as the rules give it. -/
theorem Part.zoneClimate_of_zone {p : Part} {tag : Nat} {z : Zone} (zone : p.zt.zone? tag = some z) :
    p.zoneClimate tag =
      let q := p.mapZt (·.modifyZone tag fun y => { y with tz := (climateOf p z).tz, heatCall := (climateOf p z).heatCall })
      match heatCallReport p z with
      | some r => q.raise r
      | none => q := by
  have named : z.tag = tag := Zt.zone?_tag _ _ _ zone
  have temps : meanTemp ((p.fm.nodes.filter fun x => x.2.tag = tag).filterMap fun x => x.2.usableTemp) z.tz = (climateOf p z).tz := by
    rw [climateOf, named, usableTemps_eq, meanTemp]
    dsimp only
    simp only [List.isEmpty_iff, List.length_eq_zero_iff]
  have call : heatCallOf (climateOf p z).tz z.settings.heatSetpoint = (climateOf p z).heatCall := rfl
  rw [zoneClimate, zone]
  dsimp only
  rw [temps, call, heatCallReport, named]
  split <;> rfl

theorem Part.zoneClimate_of_none {p : Part} {tag : Nat} (noZone : p.zt.zone? tag = none) : p.zoneClimate tag = p := by
  rw [zoneClimate, noZone]

theorem Part.zoneClimate_zt {p : Part} {tag : Nat} {z : Zone} (zone : p.zt.zone? tag = some z) :
    (p.zoneClimate tag).zt =
      p.zt.modifyZone tag fun y => { y with tz := (climateOf p z).tz, heatCall := (climateOf p z).heatCall } := by
  rw [zoneClimate_of_zone zone]
  dsimp only
  split <;> rfl

theorem Part.zoneClimate_zone? (p : Part) (tag other : Nat) :
    (p.zoneClimate tag).zt.zone? other = if other = tag then (p.zt.zone? tag).map (climateOf p) else p.zt.zone? other := by
  cases zone : p.zt.zone? tag with
  | none =>
    rw [zoneClimate_of_none zone]
    split
    · next same => rw [same, zone]; rfl
    · rfl
  | some z =>
    rw [zoneClimate_zt zone, Zt.zone?_modifyZone_some (by intro y; rfl) zone]
    rfl

theorem Part.zoneClimate_table (p : Part) (tag : Nat) :
    (p.zoneClimate tag).zt.nextTag = p.zt.nextTag ∧ (p.zoneClimate tag).zt.pins = p.zt.pins := by
  cases zone : p.zt.zone? tag with
  | none =>
    rw [zoneClimate_of_none zone]
    exact ⟨rfl, rfl⟩
  | some z =>
    rw [zoneClimate_zt zone]
    exact ⟨rfl, rfl⟩

theorem Part.zoneClimate_slu (p : Part) (tag : Nat) :
    (p.zoneClimate tag).slu = p.slu.raiseAll ((p.zt.zone? tag).bind (heatCallReport p)).toList p.fm.clock := by
  cases zone : p.zt.zone? tag with
  | none =>
    rw [zoneClimate_of_none zone]
    rfl
  | some z =>
    rw [zoneClimate_of_zone zone, Option.bind_some]
    dsimp only
    cases heatCallReport p z <;> rfl

/-! ### The climate of several zones -/

theorem foldl_zoneClimate_fm (tags : List Nat) (p : Part) : (tags.foldl Part.zoneClimate p).fm = p.fm :=
  foldl_keeps Part.zoneClimate (·.fm) (fun p t => Part.zoneClimate_fm p t) _ _

theorem foldl_zoneClimate_zone? (tags : List Nat) (p : Part) (other : Nat) :
    (tags.foldl Part.zoneClimate p).zt.zone? other =
      if other ∈ tags then (p.zt.zone? other).map (climateOf p) else p.zt.zone? other := by
  induction tags generalizing p with
  | nil => rfl
  | cons tag tags ih =>
    have same : climateOf (p.zoneClimate tag) = climateOf p := funext fun z => climateOf_congr (Part.zoneClimate_fm p tag) z
    rw [List.foldl_cons, ih, same, Part.zoneClimate_zone?]
    by_cases isHead : other = tag
    · subst isHead
      rw [if_pos rfl, if_pos List.mem_cons_self, Option.map_map]
      split
      · exact congrArg (fun g => Option.map g _) (funext fun z => climateOf_idem p z)
      · rfl
    · simp only [isHead, if_false, List.mem_cons, false_or]

theorem foldl_zoneClimate_table (tags : List Nat) (p : Part) :
    (tags.foldl Part.zoneClimate p).zt.nextTag = p.zt.nextTag ∧ (tags.foldl Part.zoneClimate p).zt.pins = p.zt.pins :=
  ⟨foldl_keeps Part.zoneClimate (·.zt.nextTag) (fun p t => (p.zoneClimate_table t).1) _ _,
    foldl_keeps Part.zoneClimate (·.zt.pins) (fun p t => (p.zoneClimate_table t).2) _ _⟩

/-- The reports of distinct zones, in their order. -/
theorem foldl_zoneClimate_slu {tags : List Nat} (distinct : tags.Nodup) (p : Part) :
    (tags.foldl Part.zoneClimate p).slu =
      p.slu.raiseAll ((tags.filterMap p.zt.zone?).filterMap (heatCallReport p)) p.fm.clock := by
  induction tags generalizing p with
  | nil => rfl
  | cons tag tags ih =>
    obtain ⟨fresh, rest⟩ := List.nodup_cons.1 distinct
    have same : heatCallReport (p.zoneClimate tag) = heatCallReport p := funext fun z => by
      rw [heatCallReport, heatCallReport, climateOf_congr (Part.zoneClimate_fm p tag)]
    have zones : tags.filterMap (p.zoneClimate tag).zt.zone? = tags.filterMap p.zt.zone? := by
      refine List.filterMap_congr fun other mem => ?_
      rw [Part.zoneClimate_zone?, if_neg]
      rintro rfl
      exact fresh mem
    rw [List.foldl_cons, ih rest, same, zones, Part.zoneClimate_fm, Part.zoneClimate_slu, ← Slu.raiseAll_append, List.filterMap_cons]
    cases zone : p.zt.zone? tag with
    | none => rfl
    | some z =>
      rw [Option.bind_some]
      dsimp only
      rw [List.filterMap_cons]
      cases heatCallReport p z <;> rfl

/-! ### The manned zones and their rows (R151, R154) -/

/-- The tags of the used zones with a member, ascending. -/
def Part.manned (p : Part) : List Nat := p.zt.tags.filter fun tag => (p.zt.zone? tag).any fun z => 0 < z.members

theorem filterMap_filter_any {α β : Type} (f : α → Option β) (holds : β → Bool) (l : List α) :
    (l.filterMap f).filter holds = (l.filter fun a => (f a).any holds).filterMap f := by
  induction l with
  | nil => rfl
  | cons a as ih =>
    cases found : f a with
    | none => simp [found, ih]
    | some b =>
      by_cases ok : holds b = true
      · simp [found, ok, ih]
      · simp [found, ok, ih]

theorem mannedZones_eq (p : Part) : mannedZones p = p.manned.filterMap p.zt.zone? := filterMap_filter_any ..

theorem mem_insertBefore {α : Type} (before : α → α → Bool) (a x : α) (l : List α) : x ∈ insertBefore before a l ↔ x = a ∨ x ∈ l := by
  induction l with
  | nil => simp [insertBefore]
  | cons y ys ih =>
    unfold insertBefore
    split
    · exact List.mem_cons
    · rw [List.mem_cons, ih, List.mem_cons]
      tauto

theorem mem_sortBy {α : Type} (before : α → α → Bool) (x : α) (l : List α) : x ∈ sortBy before l ↔ x ∈ l := by
  induction l with
  | nil => rfl
  | cons a as ih => rw [sortBy, mem_insertBefore, ih, List.mem_cons]

theorem Zt.mem_tags {t : Zt} {tag : Nat} {z : Zone} (zone : t.zone? tag = some z) : tag ∈ t.tags := by
  have held : z ∈ t.zones := List.mem_of_find?_eq_some zone
  rw [tags, mem_sortBy, ← zone?_tag _ _ _ zone]
  exact List.mem_map_of_mem held

theorem Part.mem_manned {p : Part} {tag : Nat} {z : Zone} (zone : p.zt.zone? tag = some z) : tag ∈ p.manned ↔ 0 < z.members := by
  rw [manned, List.mem_filter, zone]
  simp [Zt.mem_tags zone]

theorem Part.manned_nodup {p : Part} (distinct : p.zt.tags.Nodup) : p.manned.Nodup := distinct.filter _

/-- R154: a zone's line, from the climate it takes. -/
theorem airRows_eq (p : Part) : airRows p = (mannedZones p).map fun z => airRow p.fm.v p.fm.qmax (climateOf p z) := by
  rw [airRows]
  refine List.map_congr_left fun z _ => ?_
  have extra : extraPerBay p.fm.v p.fm.qmax z.settings (climateOf p z).tz = match (climateOf p z).tz with
      | none => 0
      | some t => min (z.settings.gain * (t - z.settings.coolSetpoint) / 4) (p.fm.qmax - p.fm.v) := by
    unfold extraPerBay
    cases (climateOf p z).tz with
    | none => rfl
    | some t =>
      dsimp only
      split
      · next cool => rw [Nat.sub_eq_zero_of_le cool]; simp
      · rfl
  exact (congrArg (fun x => AirRow.mk z.tag z.members (z.members * x) (z.members * (p.fm.v + x))) extra).symm

/-- A line's demand is its minimum and its excess. -/
theorem airRows_demand (p : Part) : ∀ r ∈ airRows p, r.demand = r.n * p.fm.v + r.excess := by
  intro r mem
  rw [airRows_eq] at mem
  obtain ⟨z, -, rfl⟩ := List.mem_map.1 mem
  exact Nat.mul_add ..

/-- R151: the tag of each row is that of a used zone with a member, and each such zone has its row. -/
theorem airRows_find? {p : Part} {tag : Nat} {z : Zone} (zone : p.zt.zone? tag = some z) :
    (airRows p).find? (fun row => row.tag == tag) =
      if 0 < z.members then some (airRow p.fm.v p.fm.qmax (climateOf p z)) else none := by
  rw [airRows_eq, mannedZones_eq, List.find?_map]
  have found : (p.manned.filterMap p.zt.zone?).find? ((fun row => row.tag == tag) ∘ fun z => airRow p.fm.v p.fm.qmax (climateOf p z))
      = if 0 < z.members then some z else none := by
    have names (a : Nat) : (p.zt.zone? a).any (fun z => z.tag == tag) = true ↔ a = tag := by
      constructor
      · intro holds
        obtain ⟨y, held, isTag⟩ := (Option.any_eq_true _ _).1 holds
        rw [← Zt.zone?_tag _ _ _ held]
        exact beq_iff_eq.1 isTag
      · rintro rfl
        rw [zone]
        exact beq_iff_eq.2 (Zt.zone?_tag _ _ _ zone)
    refine (List.find?_filterMap ..).trans ?_
    by_cases staffed : 0 < z.members
    · have mem : tag ∈ p.manned := (Part.mem_manned zone).2 staffed
      have first : p.manned.find? (fun a => (p.zt.zone? a).any fun z => z.tag == tag) = some tag := by
        cases search : p.manned.find? (fun a => (p.zt.zone? a).any fun z => z.tag == tag) with
        | none => exact absurd ((names tag).2 rfl) (List.find?_eq_none.1 search tag mem)
        | some a => rw [(names a).1 (List.find?_some (p := fun a => (p.zt.zone? a).any fun z => z.tag == tag) search)]
      rw [if_pos staffed, ← zone]
      exact congrArg (fun o => Option.bind o p.zt.zone?) first
    · have first : p.manned.find? (fun a => (p.zt.zone? a).any fun z => z.tag == tag) = none := by
        rw [List.find?_eq_none]
        intro a mem holds
        rw [(names a).1 holds] at mem
        exact staffed ((Part.mem_manned zone).1 mem)
      rw [if_neg staffed]
      exact congrArg (fun o => Option.bind o p.zt.zone?) first
  rw [found]
  split <;> rfl

theorem zoneGrants_tags (spare : Nat) (rows : List AirRow) : (zoneGrants spare rows).map Prod.fst = rows.map AirRow.tag := by
  have handed (total r : Nat) (rows : List AirRow) : (handOut spare total r rows).map Prod.fst = rows.map AirRow.tag := by
    induction rows generalizing r with
    | nil => rfl
    | cons row rows ih =>
      rw [handOut_cons, List.map_cons, ih]
      rfl
  unfold zoneGrants
  dsimp only
  split
  · rw [List.map_map]
    rfl
  · exact handed ..

/-- A zone without a row has no grant. -/
theorem lookupTag_of_no_row {spare tag : Nat} {rows : List AirRow} (none : rows.find? (fun row => row.tag == tag) = Option.none) :
    lookupTag tag (zoneGrants spare rows) = Option.none := by
  rw [lookupTag, Option.map_eq_none_iff, List.find?_eq_none]
  intro x mem named
  have key : x.1 ∈ rows.map AirRow.tag := by
    rw [← zoneGrants_tags spare rows]
    exact List.mem_map_of_mem mem
  obtain ⟨row, memRow, same⟩ := List.mem_map.1 key
  refine List.find?_eq_none.1 none row memRow ?_
  rw [same]
  exact named

/-! ### The allocation as a whole -/

/-- The zones and bays after an allocation, before the hand-over. -/
def Part.granted (f : Nat) (p : Part) : Part :=
  ((p.manned.foldl Part.zoneClimate p).mapZt (·.withGrants (airRows p) (zoneGrants (f - p.fm.m) (airRows p)))).mapFm
    (·.withGrants (airRows p) (zoneGrants (f - p.fm.m) (airRows p)))

/-- R159: the bays whose damper byte an allocation changes. -/
def Part.dampersMoved (p q : Part) : List Nat :=
  (p.fm.nodes.filter fun x => (q.fm.node? x.1).any fun r => damperByte q.fm.qmax r.q != damperByte q.fm.qmax x.2.q).map Prod.fst

theorem Part.allocate_eq {p : Part} {f : Nat} (supply : p.afa.supply = some f) :
    p.allocate = ((p.granted f).handOverAll (p.dampersMoved (p.granted f))).mapAfa
      fun a => { a with timer := .running p.fm.clock a.ai } := by
  have fm : (p.manned.foldl Part.zoneClimate p).fm = p.fm := foldl_zoneClimate_fm _ p
  have rows : (p.manned.filterMap fun tag => ((p.manned.foldl Part.zoneClimate p).zt.zone? tag).map (airRow p.fm.v p.fm.qmax)) = airRows p := by
    rw [airRows_eq, mannedZones_eq, List.map_filterMap]
    refine List.filterMap_congr fun tag mem => ?_
    rw [foldl_zoneClimate_zone?, if_pos mem, Option.map_map]
    rfl
  have manned : (p.zt.tags.filter fun tag => (p.zt.zone? tag).any fun z => 0 < z.members) = p.manned := rfl
  rw [allocate, supply]
  dsimp only
  rw [manned, fm, rows]
  show ((p.granted f).handOverAll (p.dampersMoved (p.granted f))).mapAfa
      (fun a => { a with timer := ((p.granted f).handOverAll (p.dampersMoved (p.granted f))).timerFor a.ai }) = _
  have clock : ((p.granted f).handOverAll (p.dampersMoved (p.granted f))).fm.clock = p.fm.clock := by
    rw [handOverAll_fm, granted, mapFm_fm, mapZt_fm, fm]
    rfl
  simp only [timerFor, clock]

section
variable (f : Nat) (p : Part)

theorem Part.granted_fm : (p.granted f).fm = p.fm.withGrants (airRows p) (zoneGrants (f - p.fm.m) (airRows p)) := by
  rw [granted, mapFm_fm, mapZt_fm, foldl_zoneClimate_fm]

theorem Part.granted_cbm : (p.granted f).cbm = p.cbm := foldl_keeps Part.zoneClimate (·.cbm) (fun p t => Part.zoneClimate_cbm p t) _ _
theorem Part.granted_afa : (p.granted f).afa = p.afa := foldl_keeps Part.zoneClimate (·.afa) (fun p t => Part.zoneClimate_afa p t) _ _

theorem Part.granted_slu (distinct : p.zt.tags.Nodup) : (p.granted f).slu = p.slu.raiseAll (heatCalls p) p.fm.clock := by
  have reports : heatCalls p = (p.manned.filterMap p.zt.zone?).filterMap (heatCallReport p) := by
    rw [heatCalls, mannedZones_eq]
    rfl
  rw [reports]
  exact foldl_zoneClimate_slu (manned_nodup distinct) p

theorem Part.granted_zone? {tag : Nat} {z : Zone} (zone : p.zt.zone? tag = some z) :
    (p.granted f).zt.zone? tag = some (if 0 < z.members then
        { climateOf p z with
          demand := (airRow p.fm.v p.fm.qmax (climateOf p z)).demand
          grant := (lookupTag tag (zoneGrants (f - p.fm.m) (airRows p))).getD 0 }
      else { z with demand := 0, grant := 0 }) := by
  have row := airRows_find? zone
  obtain rfl : z.tag = tag := Zt.zone?_tag _ _ _ zone
  rw [granted, mapFm_zt, mapZt_zt, Zt.withGrants, Zt.zone?_mapZones _ (by intro z; rfl), foldl_zoneClimate_zone?, zone]
  by_cases staffed : 0 < z.members
  · rw [if_pos ((mem_manned zone).2 staffed), Option.map_some, Option.map_some, climateOf_tag, row, if_pos staffed,
      if_pos staffed]
    rfl
  · rw [if_neg staffed] at row
    rw [if_neg (mt (mem_manned zone).1 staffed), Option.map_some, row, lookupTag_of_no_row row, if_neg staffed]
    rfl

theorem Part.granted_zone?_none {tag : Nat} (noZone : p.zt.zone? tag = none) : (p.granted f).zt.zone? tag = none := by
  rw [granted, mapFm_zt, mapZt_zt, Zt.withGrants, Zt.zone?_mapZones _ (by intro z; rfl), foldl_zoneClimate_zone?, noZone]
  split <;> rfl

theorem Part.granted_table : (p.granted f).zt.nextTag = p.zt.nextTag ∧ (p.granted f).zt.pins = p.zt.pins :=
  foldl_zoneClimate_table p.manned p

/-- R158: a bay as an allocation of these rows and grants leaves it. -/
def BayRec.granted (rows : List AirRow) (gs : List (Nat × Nat)) (place : Nat) (r : BayRec) : BayRec :=
  match rows.find? (fun row => row.tag == r.tag), lookupTag r.tag gs with
  | some row, some g => { r with q := bayGrant g row.n place }
  | _, _ => r

/-- An allocation writes a bay's grant alone. -/
theorem BayRec.granted_shape (rows : List AirRow) (gs : List (Nat × Nat)) (place : Nat) (r : BayRec) :
    ∃ q, r.granted rows gs place = { r with q := q } := by
  unfold granted
  split <;> exact ⟨_, rfl⟩

theorem Part.granted_node? (b : Nat) :
    (p.granted f).fm.node? b = (p.fm.node? b).map fun r =>
      r.granted (airRows p) (zoneGrants (f - p.fm.m) (airRows p)) ((p.fm.membersOf r.tag).idxOf b) := by
  rw [granted_fm, FloorModel.withGrants, FloorModel.node?_mapNodes]
  refine congrArg (fun g => Option.map g _) (funext fun r => ?_)
  unfold BayRec.granted
  cases (airRows p).find? (fun row => row.tag == r.tag) with
  | none => rfl
  | some row => cases lookupTag r.tag (zoneGrants (f - p.fm.m) (airRows p)) <;> rfl

end

theorem Part.mem_dampersMoved (p q : Part) (b : Nat) :
    b ∈ p.dampersMoved q ↔ ∃ r r', p.fm.node? b = some r ∧ q.fm.node? b = some r'
      ∧ damperByte q.fm.qmax r'.q ≠ damperByte q.fm.qmax r.q := by
  rw [dampersMoved, List.mem_map]
  constructor
  · rintro ⟨⟨b, r⟩, mem, rfl⟩
    obtain ⟨node, moved⟩ := List.mem_filter.1 mem
    obtain ⟨r', node', differs⟩ := (Option.any_eq_true _ _).1 moved
    exact ⟨r, r', (p.fm.mem_nodes b r).1 node, node', bne_iff_ne.1 differs⟩
  · rintro ⟨r, r', node, node', differs⟩
    exact ⟨(b, r), List.mem_filter.2 ⟨(p.fm.mem_nodes b r).2 node, (Option.any_eq_true _ _).2 ⟨r', node', bne_iff_ne.2 differs⟩⟩, rfl⟩

/-- R151 to R159: an allocation does what the rules say. -/
theorem Part.allocate_allocates {p : Part} {f : Nat} (supply : p.afa.supply = some f) : Allocates f p p.allocate := by
  have grants : zoneGrants (f - p.fm.m) (airRows p) = grantsOf p.fm.v (f - p.fm.nr * p.fm.v) (airRows p) :=
    zoneGrants_eq (airRows_demand p)
  have zt : p.allocate.zt = (p.granted f).zt := by rw [allocate_eq supply, mapAfa_zt, handOverAll_zt]
  have fm : p.allocate.fm = (p.granted f).fm := by rw [allocate_eq supply, mapAfa_fm, handOverAll_fm]
  have cbm : p.allocate.cbm = ((p.granted f).handOverAll (p.dampersMoved (p.granted f))).cbm := by rw [allocate_eq supply, mapAfa_cbm]
  have qmax : (p.granted f).fm.qmax = p.fm.qmax := by rw [granted_fm]; rfl
  refine ⟨fun tag z zone => ?zone, fun tag noZone => ?noZone, ?nextTag, ?pins, ?floor, fun b r node => ?bay, ?bus, fun b => ?pending⟩
  case zone =>
    rw [zt, granted_zone? f p zone, airRows_find? zone, grants]
    split <;> rfl
  case noZone =>
    rw [zt, granted_zone?_none f p noZone]
  case nextTag =>
    rw [zt, (p.granted_table f).1]
  case pins =>
    rw [zt, (p.granted_table f).2]
  case floor =>
    rw [fm, granted_fm]
    rfl
  case bay =>
    rw [fm, granted_node?, node, Option.map_some, grants]
    unfold BayRec.granted
    cases (airRows p).find? (fun row => row.tag == r.tag) with
    | none => rfl
    | some row => cases lookupTag r.tag (grantsOf p.fm.v (f - p.fm.nr * p.fm.v) (airRows p)) <;> rfl
  case bus =>
    obtain ⟨set, shape⟩ := (p.granted f).handOverAll_shape (p.dampersMoved (p.granted f))
    rw [cbm, shape, granted_cbm]
  case pending =>
    rw [cbm, mem_handOverAll, granted_cbm, mem_dampersMoved, fm, qmax]
    have kept {r r' : BayRec} (node : p.fm.node? b = some r) (node' : (p.granted f).fm.node? b = some r') :
        r'.lastSent = r.lastSent := by
      rw [granted_node?, node, Option.map_some, Option.some.injEq] at node'
      obtain ⟨q, shape⟩ := r.granted_shape (airRows p) (zoneGrants (f - p.fm.m) (airRows p)) ((p.fm.membersOf r.tag).idxOf b)
      rw [← node', shape]
    refine or_congr_right ⟨?_, ?_⟩
    · rintro ⟨⟨r, r', node, node', differs⟩, r'', held, unsent⟩
      cases node'.symm.trans held
      refine ⟨r, r', node, node', differs, fun l sent level last same => unsent sent ((kept node node').trans last) ?_⟩
      rw [BayRec.shows, level, qmax, same]
      rfl
    · rintro ⟨r, r', node, node', differs, unsent⟩
      refine ⟨⟨r, r', node, node', differs⟩, r', node', fun pair last shows => ?_⟩
      obtain ⟨l, level, same⟩ := Option.map_eq_some_iff.1 shows
      refine unsent l pair level ((kept node node').symm.trans last) ?_
      rw [← same, qmax]
      rfl

/-- A change of the link alone is not seen by what an allocation does. -/
theorem Allocates.congr {f : Nat} {s t t' : Part} (h : Allocates f s t) (zt : t'.zt = t.zt) (fm : t'.fm = t.fm) (cbm : t'.cbm = t.cbm) :
    Allocates f s t' := by
  unfold Allocates
  rw [zt, fm, cbm]
  exact h

/-- Outside the grants, an allocation writes no bay. -/
theorem Part.allocate_node? {p : Part} {f : Nat} (supply : p.afa.supply = some f) {b : Nat} {r : BayRec} (node : p.fm.node? b = some r) :
    ∃ q, p.allocate.fm.node? b = some { r with q := q } := by
  obtain ⟨q, shape⟩ := r.granted_shape (airRows p) (zoneGrants (f - p.fm.m) (airRows p)) ((p.fm.membersOf r.tag).idxOf b)
  refine ⟨q, ?_⟩
  rw [allocate_eq supply, mapAfa_fm, handOverAll_fm, granted_node?, node, Option.map_some, shape]

theorem Part.allocate_afa {p : Part} {f : Nat} (supply : p.afa.supply = some f) :
    p.allocate.afa = { p.afa with timer := .running p.fm.clock p.afa.ai } := by
  rw [allocate_eq supply, mapAfa_afa, handOverAll_afa, granted_afa]

theorem Part.allocate_slu {p : Part} {f : Nat} (supply : p.afa.supply = some f) (distinct : p.zt.tags.Nodup) :
    p.allocate.slu = p.slu.raiseAll (heatCalls p) p.fm.clock := by
  rw [allocate_eq supply, mapAfa_slu, handOverAll_slu, granted_slu f p distinct]

/-- Reports that the mask enables and the queue has room for, raised while the transmitter is busy. -/
theorem Slu.raiseAll_choose_queue {u : Slu} {rs : List Report} (c : Clock) (busy : u.tx ≠ .idle)
    (on : ∀ r ∈ rs, Enabled u r.code) (room : u.queue.length + rs.length ≤ 16) :
    (u.raiseAll rs c).choose.queue = u.queue ++ rs.map fun r => ⟨r, c⟩ := by
  have tx : (u.raiseAll rs c).tx ≠ .idle := by rwa [raiseAll_eq]
  rw [choose_busy _ tx, raiseAll_queued c on room]

/-- Settles O54: the expiry may happen, and is one allocation. -/
theorem allocationExpiryAllocates : Obligations.AllocationExpiryAllocates := by
  unfold Obligations.AllocationExpiryAllocates
  intro since span f s timer passed supply
  have may : s.part.afa.timer.mayExpire s.part.fm.clock = true := by
    rw [timer]
    exact decide_eq_true passed
  have runs : exec .allocationIntervalExpiry s = .next { s with part := s.part.allocate.choose } := by
    refine (exec_event rfl s).trans ?_
    rw [Part.eventEffect, if_pos may]
  have allocates : Allocates f s.part s.part.allocate.choose := (Part.allocate_allocates supply).congr rfl rfl rfl
  refine ⟨_, runs, rfl, Part.allocate_afa supply, Part.allocate_rsq _, Part.allocate_pmon _, Part.allocate_cut _, allocates,
    fun b r node => Part.allocate_node? supply node, fun tag z zone empty => ?_, fun distinct busy enabled room => ?_⟩
  · refine (allocates.1 tag z zone).trans ?_
    rw [airRows_find? zone, if_neg (by omega)]
  · show (Slu.choose s.part.allocate.slu).queue = _
    rw [Part.allocate_slu supply distinct]
    exact Slu.raiseAll_choose_queue _ busy enabled room

/-! ### SET SUPPLY (R185) -/

theorem handleSetSupply_notReady (fh fl ih il : Byte) {p : Part} (noFloor : p.fm.state = .unconfigured) :
    handleSetSupply [fh, fl, ih, il] p = (p, .plain .notReady 0) := by
  rw [handleSetSupply, lengthIs_of_eq (by rfl), checked_none, Part.configured_of_unconfigured noFloor, checked_some]

/-- R148: the clamped budget. -/
def Part.budget (p : Part) (x : Nat) : Nat := clamp p.fm.m p.fm.fmax x

/-- R148: the budget and the interval written. -/
def Part.supplied (budget interval : Nat) (p : Part) : Part :=
  p.mapAfa fun a => { a with supply := some (p.budget budget), ai := clamp 10 300 interval }

theorem Part.setSupply_of_running {p : Part} (budget interval : Nat) (running : p.fm.state = .running) :
    p.setSupply budget interval = (p.supplied budget interval).allocate := by
  rw [setSupply]
  dsimp only [mapAfa_fm]
  rw [running]
  rfl

theorem Part.setSupply_of_survey {p : Part} (budget interval : Nat) (survey : p.fm.state = .survey) :
    p.setSupply budget interval = p.supplied budget interval := by
  rw [setSupply]
  dsimp only [mapAfa_fm]
  rw [survey]
  rfl

/-- What the reply to SET SUPPLY shows: the clamped values. -/
theorem Part.setSupply_shows {p : Part} (budget interval : Nat) (floor : p.fm.state ≠ .unconfigured) :
    (p.setSupply budget interval).afa.supply = some (p.budget budget) ∧ (p.setSupply budget interval).afa.ai = clamp 10 300 interval
      ∧ (p.setSupply budget interval).fm.m = p.fm.m ∧ (p.setSupply budget interval).fm.fmax = p.fm.fmax := by
  cases state : p.fm.state with
  | unconfigured => exact absurd state floor
  | survey =>
    rw [setSupply_of_survey budget interval state]
    exact ⟨rfl, rfl, rfl, rfl⟩
  | running =>
    have supply : (p.supplied budget interval).afa.supply = some (p.budget budget) := rfl
    have fm := (Keeps.allocate (p.supplied budget interval)).fm
    rw [setSupply_of_running budget interval state, allocate_afa supply, fm]
    exact ⟨rfl, rfl, rfl, rfl⟩

/-- Past the values written, SET SUPPLY is at most one allocation. -/
theorem Part.supplied_keeps (budget interval : Nat) (p : Part) : (p.supplied budget interval).Keeps (p.setSupply budget interval) := by
  cases state : p.fm.state with
  | unconfigured =>
    rw [setSupply]
    dsimp only [mapAfa_fm]
    rw [state]
    exact .refl _
  | survey =>
    rw [setSupply_of_survey budget interval state]
    exact .refl _
  | running =>
    rw [setSupply_of_running budget interval state]
    exact .allocate _

theorem Part.Keeps.assembler {p q : Part} (h : p.Keeps q) : q.slu.assembler = p.slu.assembler := by
  obtain ⟨rs, eq⟩ := h.raised
  rw [eq, Slu.raiseAll_eq]

theorem handleSetSupply_done (fh fl ih il : Byte) {p : Part} (floor : p.fm.state ≠ .unconfigured) :
    handleSetSupply [fh, fl, ih, il] p = (p.setSupply (word16 fh fl) (word16 ih il),
      .done (bytes16 (p.budget (word16 fh fl)) ++ bytes16 p.fm.m ++ bytes16 p.fm.fmax ++ bytes16 (clamp 10 300 (word16 ih il)))) := by
  have fields : field16At [fh, fl, ih, il] 0 = word16 fh fl ∧ field16At [fh, fl, ih, il] 2 = word16 ih il := ⟨rfl, rfl⟩
  obtain ⟨supply, ai, m, fmax⟩ := Part.setSupply_shows (word16 fh fl) (word16 ih il) floor
  rw [handleSetSupply, lengthIs_of_eq (by rfl), checked_none, Part.configured_of_floor floor, checked_none, fields.1, fields.2]
  dsimp only
  rw [supply, ai, m, fmax]
  rfl

/-- Settles O24: the values are clamped and written; a RUNNING floor allocates the new budget. -/
theorem setSupplyClampsAndAllocates : Obligations.SetSupplyClampsAndAllocates := by
  unfold Obligations.SetSupplyClampsAndAllocates
  refine ⟨fun number fh fl ih il s free noFloor => ?notReady, fun number fh fl ih il s free floor => ?done⟩
  case notReady =>
    exact takeRequest_answersOnly 0x08 number _ s .notReady 0 [] free fun p same =>
      handleSetSupply_notReady fh fl ih il (same ▸ noFloor)
  case done =>
    intro m fmax f ai
    generalize taken : ({ s.part with slu := { s.part.slu with assembler := .hunting, inFlight := some ⟨0x08, number⟩ } } : Part) = p
    have fm : p.fm = s.part.fm := by rw [← taken]
    have budget : p.budget (word16 fh fl) = f := by rw [← taken]; rfl
    have handled := handleSetSupply_done fh fl ih il (p := p) (by rw [fm]; exact floor)
    have minimum : p.fm.m = m := by rw [fm]; rfl
    have maximum : p.fm.fmax = fmax := by rw [fm]; rfl
    rw [budget, minimum, maximum] at handled
    have link : (p.setSupply (word16 fh fl) (word16 ih il)).slu.assembler = .hunting
        ∧ (p.setSupply (word16 fh fl) (word16 ih il)).slu.inFlight = some ⟨0x08, number⟩ := by
      have kept := p.supplied_keeps (word16 fh fl) (word16 ih il)
      rw [kept.assembler, kept.link.1, ← taken]
      exact ⟨rfl, rfl⟩
    obtain ⟨t, runs, answers, keeps, eq⟩ := takeRequest_answersOnLink 0x08 number (handleSetSupply [fh, fl, ih, il]) s
      (p.setSupply (word16 fh fl) (word16 ih il)) .done 0 _ free (by rw [taken]; exact handled) link.1 link.2
    refine ⟨t, runs, answers, fun survey => ?survey, fun running => ?running⟩
    case survey =>
      rw [Part.setSupply_of_survey _ _ (by rw [fm]; exact survey), Part.supplied, budget, ← taken] at eq keeps
      exact ⟨keeps, eq⟩
    case running =>
      generalize supplied : p.supplied (word16 fh fl) (word16 ih il) = p' at *
      have supply : p'.afa.supply = some f := by rw [← supplied, Part.supplied, budget]; rfl
      have shape : p' = { s.part with
          slu := { s.part.slu with assembler := .hunting, inFlight := some ⟨0x08, number⟩ }
          afa := { s.part.afa with supply := some f, ai := ai } } := by
        rw [← supplied, Part.supplied, budget, ← taken]
        rfl
      have allocated : p.setSupply (word16 fh fl) (word16 ih il) = p'.allocate := by
        rw [Part.setSupply_of_running _ _ (by rw [fm]; exact running), supplied]
      rw [allocated] at eq keeps
      have allocates : Allocates f s.part t.part := by
        have whole : Allocates f p' p'.allocate := Part.allocate_allocates supply
        rw [shape] at whole
        refine Allocates.congr (t := p'.allocate) ?_ (by rw [eq]) (by rw [eq]) (by rw [eq])
        rw [shape]
        exact whole
      refine ⟨?_, ?_, ?_, ?_, by rw [eq], fun b r node => ?_, allocates, fun distinct busy enabled room => ?_⟩
      · rw [eq]
        dsimp only
        rw [Part.allocate_afa supply, shape]
      · rw [eq]
        dsimp only
        rw [Part.allocate_rsq, shape]
      · rw [eq]
        dsimp only
        rw [Part.allocate_pmon, shape]
      · rw [eq]
        dsimp only
        rw [Part.allocate_cut, shape]
      · rw [eq]
        exact Part.allocate_node? supply (by rw [shape]; exact node)
      · rw [keeps.1, Part.allocate_slu supply (by rw [shape]; exact distinct), shape]
        exact congrArg Slu.queue (Slu.raiseAll_queued (u := { s.part.slu with assembler := .hunting, inFlight := some ⟨0x08, number⟩ })
          s.part.fm.clock enabled room)

end Sys2Proof.Machine

/-!
The cutover engine (R110 to R128): what one bay's cutover does (R100, R114), several bays', and a cutover's completion (R126).
-/
namespace Sys2Proof.Machine

/-! ### One bay (R114) -/

/-- R114, R115: a bay's record moved to its next tag, before its target is recomputed. -/
def BayRec.arrived (n : Nat) (r : BayRec) : BayRec := { r with tag := n, nextTag := none, moves := moveCount r.moves }

/-- The part with one bay off the cutover list. -/
def Part.unlist (b : Nat) (p : Part) : Part := p.mapCut fun c => { c with list := removeSet b c.list }

/-- R125: one more bay counted as moved. -/
def Part.countMove (p : Part) : Part := p.mapCut fun c => { c with run := c.run.map fun x => { x with moved := x.moved + 1 } }

theorem Part.cutBay_of_moving {p : Part} {b n : Nat} {r : BayRec} (node : p.fm.node? b = some r) (next : r.nextTag = some n) :
    p.cutBay b = (((((p.unlist b).modifyNode b (BayRec.arrived n)).zoneCounts r.tag n).retargetBay b).countMove) := by
  have node' : (p.mapCut fun c => { c with list := removeSet b c.list }).fm.node? b = some r := node
  rw [cutBay]
  dsimp only
  rw [node']
  dsimp only
  rw [next]
  rfl

theorem Part.cutBay_of_still {p : Part} {b : Nat} (still : ∀ r n, p.fm.node? b = some r → r.nextTag ≠ some n) :
    p.cutBay b = p.unlist b := by
  rw [cutBay]
  dsimp only
  split
  · next r node =>
    split
    · next n next => exact absurd next (still r n node)
    · rfl
  · rfl

/-- R135: a bay retargeted keeps its record but for the target. -/
theorem Part.retargetBay_node? {p : Part} {b : Nat} {r : BayRec} (node : p.fm.node? b = some r) :
    (p.retargetBay b).fm.node? b = some { r with target := match p.zt.zone? r.tag with
      | some z => some z.target
      | none => r.target } := by
  unfold retargetBay
  rw [node]
  dsimp only
  cases p.zt.zone? r.tag with
  | none => exact node
  | some z =>
    dsimp only
    rw [modifyNode_fm, FloorModel.node?_modifyNode, if_pos rfl, node]
    rfl

theorem Part.retargetBay_node?_other (p : Part) {b b' : Nat} (other : b' ≠ b) : (p.retargetBay b).fm.node? b' = p.fm.node? b' := by
  unfold retargetBay
  split
  · split
    · rw [modifyNode_fm, FloorModel.node?_modifyNode, if_neg other]
    · rfl
  · rfl

theorem Part.cutBay_node?_other (p : Part) {b b' : Nat} (other : b' ≠ b) : (p.cutBay b).fm.node? b' = p.fm.node? b' := by
  by_cases moving : ∃ r n, p.fm.node? b = some r ∧ r.nextTag = some n
  · obtain ⟨r, n, node, next⟩ := moving
    rw [cutBay_of_moving node next]
    refine (retargetBay_node?_other _ other).trans ?_
    rw [zoneCounts_fm, modifyNode_fm, FloorModel.node?_modifyNode, if_neg other]
    rfl
  · rw [cutBay_of_still fun r n node next => moving ⟨r, n, node, next⟩]
    rfl

section
variable {p : Part} {b n : Nat} {r : BayRec} (node : p.fm.node? b = some r) (next : r.nextTag = some n)
include node next

/-- R114, R115: the bay that cuts over. -/
theorem Part.cutBay_node? : ∃ target, (p.cutBay b).fm.node? b = some { r.arrived n with target := target } := by
  have moved : (((p.unlist b).modifyNode b (BayRec.arrived n)).zoneCounts r.tag n).fm.node? b = some (r.arrived n) := by
    rw [zoneCounts_fm, modifyNode_fm, FloorModel.node?_modifyNode, if_pos rfl, show (p.unlist b).fm = p.fm from rfl, node]
    rfl
  rw [cutBay_of_moving node next]
  exact ⟨_, retargetBay_node? moved⟩

theorem Part.cutBay_cut :
    (p.cutBay b).cut = { p.cut with
      list := removeSet b p.cut.list, run := p.cut.run.map fun x => { x with moved := x.moved + 1 } } := by
  rw [cutBay_of_moving node next, countMove, mapCut_cut, retargetBay_cut, zoneCounts_cut]
  rfl

end

/-- R114: whatever the bay, it leaves the list, and the rest of the cutover's record but the count stands. -/
theorem Part.cutBay_cut_shape (p : Part) (b : Nat) : ∃ run, (p.cutBay b).cut = { p.cut with list := removeSet b p.cut.list, run := run } := by
  by_cases moving : ∃ r n, p.fm.node? b = some r ∧ r.nextTag = some n
  · obtain ⟨r, n, node, next⟩ := moving
    exact ⟨_, cutBay_cut node next⟩
  · rw [cutBay_of_still fun r n node next => moving ⟨r, n, node, next⟩]
    exact ⟨_, rfl⟩

/-! ### The zone table at a bay's cutover (R100, R101, R90) -/

/-- R100: the zone that a bay leaves. -/
def Zone.left (z : Zone) : Zone := { z with members := z.members - 1, outgoing := z.outgoing - 1 }

/-- R100: the zone that a bay joins; from BORN it becomes LIVE and OCCUPIED. -/
def Zone.joined (now : Clock) (z : Zone) : Zone :=
  let z := { z with members := z.members + 1, incoming := z.incoming - 1 }
  if z.life = .born then { z with life := .live }.startOccupied now else z

theorem Zone.joined_tag (now : Clock) (z : Zone) : (z.joined now).tag = z.tag := by
  unfold joined
  dsimp only
  split <;> rfl

/-- The part with the counts of both zones moved and their anchors set, before the old zone may be freed. -/
def Part.recounted (old new : Nat) (p : Part) : Part :=
  ((p.mapZt fun t => (t.modifyZone old Zone.left).modifyZone new (Zone.joined p.fm.clock)).reanchor old).reanchor new

theorem Zt.modifyZone_modifyZone {tag : Nat} {g h : Zone → Zone} (keeps : ∀ z, (g z).tag = z.tag) (t : Zt) :
    (t.modifyZone tag g).modifyZone tag h = t.modifyZone tag fun z => h (g z) := by
  have twice (z : Zone) : (if (if z.tag = tag then g z else z).tag = tag then h (if z.tag = tag then g z else z)
      else if z.tag = tag then g z else z) = if z.tag = tag then h (g z) else z := by
    by_cases named : z.tag = tag
    · rw [if_pos named, if_pos named, if_pos ((keeps z).trans named)]
    · rw [if_neg named, if_neg named, if_neg named]
  unfold modifyZone mapZones
  rw [List.map_map]
  refine congrArg (fun slots => { t with slots := slots }) (List.map_congr_left fun o _ => ?_)
  cases o with
  | none => rfl
  | some z => exact congrArg some (twice z)

theorem Part.zoneCounts_eq (old new : Nat) (p : Part) :
    p.zoneCounts old new = match (p.recounted old new).zt.zone? old with
      | some z => if z.life = .retiring ∧ z.members = 0 then (p.recounted old new).freeZone old else p.recounted old new
      | none => p.recounted old new := by
  have both : (p.mapZt (·.modifyZone old fun z => { z with members := z.members - 1, outgoing := z.outgoing - 1 })).mapZt
        (·.modifyZone new fun z => { z with members := z.members + 1, incoming := z.incoming - 1 })
      = p.mapZt fun t => (t.modifyZone old Zone.left).modifyZone new fun z =>
        { z with members := z.members + 1, incoming := z.incoming - 1 } := rfl
  have joins : (p.mapZt fun t => (t.modifyZone old Zone.left).modifyZone new fun z =>
        { z with members := z.members + 1, incoming := z.incoming - 1 }).mapZt (·.modifyZone new fun z =>
          if z.life = .born then { z with life := .live }.startOccupied p.fm.clock else z)
      = p.mapZt fun t => (t.modifyZone old Zone.left).modifyZone new (Zone.joined p.fm.clock) := by
    refine congrArg (fun t => { p with zt := t }) ?_
    exact Zt.modifyZone_modifyZone (by intro z; rfl) _
  rw [zoneCounts, both, mapZt_fm, joins]
  rfl

/-- R100, R101: the zones once a bay has moved between two others' tags, the old one not yet freed. -/
theorem Part.recounted_zone? {p : Part} {old new : Nat} (differ : new ≠ old) (tag : Nat) :
    (p.recounted old new).zt.zone? tag =
      if tag = old then (p.zt.zone? old).map fun z => { z.left with anchor := (p.fm.membersOf old).head? }
      else if tag = new then (p.zt.zone? new).map fun z => { z.joined p.fm.clock with anchor := (p.fm.membersOf new).head? }
      else p.zt.zone? tag := by
  have anchors (q : Part) (t tag : Nat) : (q.reanchor t).zt.zone? tag
      = if tag = t then (q.zt.zone? t).map fun z => { z with anchor := (q.fm.membersOf t).head? } else q.zt.zone? tag := by
    rw [reanchor, mapZt_zt, Zt.zone?_modifyZone _ _ (by intro z; rfl)]
  have counts (tag : Nat) : ((p.zt.modifyZone old Zone.left).modifyZone new (Zone.joined p.fm.clock)).zone? tag
      = if tag = new then (p.zt.zone? new).map (Zone.joined p.fm.clock)
        else if tag = old then (p.zt.zone? old).map Zone.left else p.zt.zone? tag := by
    rw [Zt.zone?_modifyZone _ _ (Zone.joined_tag _), Zt.zone?_modifyZone _ _ (by intro z; rfl), if_neg differ,
      Zt.zone?_modifyZone _ _ (by intro z; rfl)]
  rw [recounted, anchors, anchors, anchors]
  dsimp only [reanchor_fm, mapZt_fm, mapZt_zt]
  rw [counts, counts, counts]
  by_cases isOld : tag = old
  · subst isOld
    simp only [if_true, Ne.symm differ, if_false]
    cases p.zt.zone? tag <;> rfl
  · by_cases isNew : tag = new
    · subst isNew
      simp only [if_true, if_neg isOld]
      cases p.zt.zone? tag <;> rfl
    · simp only [if_neg isOld, if_neg isNew]

theorem Part.freeZone_zone? (p : Part) (tag other : Nat) :
    (p.freeZone tag).zt.zone? other = if other = tag then none else p.zt.zone? other := by
  have zt : (p.freeZone tag).zt = { p.zt.dropZone tag with pins := p.zt.pins.filter fun x => x.tag != tag } := by
    rw [freeZone, raiseAll_zt]
    rfl
  rw [zt]
  exact Zt.zone?_dropZone tag p.zt other

theorem Part.freeZone_table (p : Part) (tag : Nat) :
    (p.freeZone tag).zt.nextTag = p.zt.nextTag ∧ (p.freeZone tag).zt.pins = p.zt.pins.filter fun x => x.tag != tag := by
  have zt : (p.freeZone tag).zt = { p.zt.dropZone tag with pins := p.zt.pins.filter fun x => x.tag != tag } := by
    rw [freeZone, raiseAll_zt]
    rfl
  rw [zt]
  exact ⟨rfl, rfl⟩

theorem Part.freeZone_slu (p : Part) (tag : Nat) : (p.freeZone tag).slu = p.slu.raiseAll (pinsDropped p tag) p.fm.clock := by
  rw [freeZone, raiseAll_slu_eq]
  rfl

/-- R90, R100: a bay has left a zone that is there: it is freed or it is not. -/
theorem Part.zoneCounts_of_zone {p : Part} {old new : Nat} {z : Zone} (differ : new ≠ old) (zone : p.zt.zone? old = some z) :
    p.zoneCounts old new =
      if freedByLeaving z then (p.recounted old new).freeZone old else p.recounted old new := by
  have held := p.recounted_zone? differ old
  rw [if_pos rfl, zone, Option.map_some] at held
  have same : (z.left.life = .retiring ∧ z.left.members = 0) ↔ freedByLeaving z = true := by
    simp [freedByLeaving, Zone.left]
  rw [zoneCounts_eq, held]
  exact if_congr same rfl rfl

/-- R90: a bay that moves drops no pin where there is none, and raises nothing. -/
theorem Part.zoneCounts_slu_of_no_pins {p : Part} (old new : Nat) (noPins : p.zt.pins = []) :
    (p.zoneCounts old new).slu = p.slu ∧ (p.zoneCounts old new).zt.pins = [] := by
  have stays : (p.recounted old new).slu = p.slu ∧ (p.recounted old new).zt.pins = [] := ⟨rfl, noPins⟩
  have freed : ((p.recounted old new).freeZone old).slu = p.slu ∧ ((p.recounted old new).freeZone old).zt.pins = [] := by
    rw [freeZone_slu, pinsDropped, (freeZone_table ..).2, stays.2]
    exact ⟨rfl, rfl⟩
  rw [zoneCounts_eq]
  split
  · split
    · exact freed
    · exact stays
  · exact stays

theorem Part.cutBay_slu_of_no_pins {p : Part} (b : Nat) (noPins : p.zt.pins = []) :
    (p.cutBay b).slu = p.slu ∧ (p.cutBay b).zt.pins = [] := by
  by_cases moving : ∃ r n, p.fm.node? b = some r ∧ r.nextTag = some n
  · obtain ⟨r, n, node, next⟩ := moving
    rw [cutBay_of_moving node next, countMove, mapCut_slu, mapCut_zt, retargetBay_slu, retargetBay_zt]
    exact zoneCounts_slu_of_no_pins _ _ noPins
  · rw [cutBay_of_still fun r n node next => moving ⟨r, n, node, next⟩]
    exact ⟨rfl, noPins⟩

/-- Two ascending lists of the same numbers are the same. -/
theorem ascending_ext {l l' : List Nat} (h : l.Pairwise (· < ·)) (h' : l'.Pairwise (· < ·)) (same : ∀ x, x ∈ l ↔ x ∈ l') : l = l' := by
  have perm : l.Perm l' := (List.perm_ext_iff_of_nodup (h.imp Nat.ne_of_lt) (h'.imp Nat.ne_of_lt)).2 same
  exact perm.eq_of_pairwise (fun a b _ _ below above => absurd below (Nat.lt_asymm above)) h h'

theorem FloorModel.membersOf_sorted (f : FloorModel) (tag : Nat) : (f.membersOf tag).Pairwise (· < ·) :=
  f.nodes_sorted.sublist (List.filter_sublist.map Prod.fst)

/-- R98: the members of a zone depend on the bays' tags alone. -/
theorem FloorModel.membersOf_congr {f g : FloorModel} (tags : ∀ b, (g.node? b).map BayRec.tag = (f.node? b).map BayRec.tag) (tag : Nat) :
    g.membersOf tag = f.membersOf tag := by
  have tagged (f : FloorModel) (b : Nat) : b ∈ f.membersOf tag ↔ (f.node? b).map BayRec.tag = some tag := by
    rw [f.mem_membersOf, Option.map_eq_some_iff]
  refine ascending_ext (g.membersOf_sorted tag) (f.membersOf_sorted tag) fun b => ?_
  rw [tagged, tagged, tags]

theorem Part.retargetBay_tags (b b' : Nat) (p : Part) :
    ((p.retargetBay b).fm.node? b').map BayRec.tag = (p.fm.node? b').map BayRec.tag := by
  by_cases same : b' = b
  · subst same
    cases node : p.fm.node? b' with
    | none =>
      rw [retargetBay, node]
      exact congrArg _ node
    | some r =>
      rw [retargetBay_node? node]
      rfl
  · rw [retargetBay_node?_other _ same]

section
variable {p : Part} {b n : Nat} {r : BayRec} {old new : Zone} (node : p.fm.node? b = some r) (next : r.nextTag = some n)
  (left : p.zt.zone? r.tag = some old) (joined : p.zt.zone? n = some new) (differ : n ≠ r.tag)
include node next left joined differ

/-- R90, R100, R101, R107, R114: a bay's cutover moves it from one zone to another. -/
theorem Part.cutBay_moves : BayMoves b r old new p (p.cutBay b) := by
  have oldTag : old.tag = r.tag := Zt.zone?_tag _ _ _ left
  have newTag : new.tag = n := Zt.zone?_tag _ _ _ joined
  generalize moved : (p.unlist b).modifyNode b (BayRec.arrived n) = q
  have qZt : q.zt = p.zt := by rw [← moved]; rfl
  have qClock : q.fm.clock = p.fm.clock := by rw [← moved]; rfl
  have qNode : q.fm.node? b = some (r.arrived n) := by
    rw [← moved, modifyNode_fm, FloorModel.node?_modifyNode, if_pos rfl, show (p.unlist b).fm = p.fm from rfl, node]
    rfl
  have cut : p.cutBay b = ((q.zoneCounts r.tag n).retargetBay b).countMove := by rw [cutBay_of_moving node next, moved]
  have zt : (p.cutBay b).zt = (q.zoneCounts r.tag n).zt := by rw [cut, countMove, mapCut_zt, retargetBay_zt]
  have counts : q.zoneCounts r.tag n = if freedByLeaving old then (q.recounted r.tag n).freeZone r.tag else q.recounted r.tag n :=
    zoneCounts_of_zone differ (by rw [qZt]; exact left)
  have members (tag : Nat) : (p.cutBay b).fm.membersOf tag = q.fm.membersOf tag := by
    refine FloorModel.membersOf_congr (fun b' => ?_) tag
    rw [cut, countMove, mapCut_fm, retargetBay_tags, zoneCounts_fm]
  have zone? (tag : Nat) : (p.cutBay b).zt.zone? tag =
      if tag = r.tag then (if freedByLeaving old then none else some { old.left with anchor := (q.fm.membersOf r.tag).head? })
      else if tag = n then some { new.joined p.fm.clock with anchor := (q.fm.membersOf n).head? }
      else p.zt.zone? tag := by
    have recounted := q.recounted_zone? differ tag
    rw [qZt, left, joined, qClock] at recounted
    rw [zt, counts]
    by_cases freed : freedByLeaving old = true
    · rw [if_pos freed, freeZone_zone?, recounted, if_pos freed]
      split <;> rfl
    · rw [if_neg freed, recounted, if_neg freed]
      rfl
  have table : (p.cutBay b).zt.nextTag = p.zt.nextTag
      ∧ (p.cutBay b).zt.pins = if freedByLeaving old then p.zt.pins.filter fun x => x.tag != r.tag else p.zt.pins := by
    have stays : (q.recounted r.tag n).zt.nextTag = p.zt.nextTag ∧ (q.recounted r.tag n).zt.pins = p.zt.pins := by
      rw [← qZt]
      exact ⟨rfl, rfl⟩
    obtain ⟨nextTag, pins⟩ := (q.recounted r.tag n).freeZone_table r.tag
    rw [zt, counts]
    by_cases freed : freedByLeaving old = true
    · rw [if_pos freed, if_pos freed, nextTag, pins, stays.1, stays.2]
      exact ⟨rfl, rfl⟩
    · rw [if_neg freed, if_neg freed]
      exact stays
  refine ⟨(Keeps.cutBay b p).fm, ?self, fun b' other => cutBay_node?_other p other, ?left, ?joined, fun tag notOld notNew => ?others,
    table.1, by rw [oldTag]; exact table.2⟩
  case self =>
    have counted : (q.zoneCounts r.tag n).fm.node? b = some (r.arrived n) := by rw [zoneCounts_fm, qNode]
    have there : (q.zoneCounts r.tag n).zt.zone? n = some { new.joined p.fm.clock with anchor := (q.fm.membersOf n).head? } := by
      rw [← zt, zone?, if_neg differ, if_pos rfl]
    rw [cut, countMove, mapCut_fm, retargetBay_node? counted, newTag]
    dsimp only [BayRec.arrived]
    rw [there]
    dsimp only
    rw [Zone.target_eq]
    unfold Zone.joined
    dsimp only
    split <;> rfl
  case left =>
    rw [zone?, if_pos oldTag, anchorOf, members, oldTag]
    simp only [Zone.left, oldTag]
  case joined =>
    rw [zone?, if_neg (newTag.trans_ne differ), if_pos newTag, anchorOf, members, newTag]
    unfold Zone.joined
    dsimp only
    by_cases born : new.life = .born <;> simp [born, newTag, Zone.startOccupied]
  case others =>
    rw [oldTag] at notOld
    rw [newTag] at notNew
    rw [zone?, if_neg notOld, if_neg notNew]

omit joined in
/-- R107: the pins that a bay's cutover drops are reported. -/
theorem Part.cutBay_slu :
    (p.cutBay b).slu = p.slu.raiseAll (if freedByLeaving old then pinsDropped p r.tag else []) p.fm.clock := by
  generalize moved : (p.unlist b).modifyNode b (BayRec.arrived n) = q
  have qZt : q.zt = p.zt := by rw [← moved]; rfl
  have counts : q.zoneCounts r.tag n = if freedByLeaving old then (q.recounted r.tag n).freeZone r.tag else q.recounted r.tag n :=
    zoneCounts_of_zone differ (by rw [qZt]; exact left)
  have same : (q.recounted r.tag n).slu = p.slu ∧ (q.recounted r.tag n).fm.clock = p.fm.clock
      ∧ pinsDropped (q.recounted r.tag n) r.tag = pinsDropped p r.tag := by
    rw [← moved]
    exact ⟨rfl, rfl, rfl⟩
  rw [cutBay_of_moving node next, moved, countMove, mapCut_slu, retargetBay_slu, counts]
  by_cases freed : freedByLeaving old = true
  · rw [if_pos freed, if_pos freed, freeZone_slu, same.1, same.2.1, same.2.2]
  · rw [if_neg freed, if_neg freed, same.1]
    rfl

end

end Sys2Proof.Machine

/-!
The cutover engine, several bays and the completion (R116, R126), and what the step timer, the deadline, HASTEN and SET PACING
do with them.
-/
namespace Sys2Proof.Machine

/-! ### Several bays (R116) -/

theorem Part.cutBays_cons (p : Part) (b : Nat) (bs : List Nat) : p.cutBays (b :: bs) = (p.cutBay b).cutBays bs := rfl

/-- R114, R116: the bays leave the list, and the rest of the cutover's record but the count stands. -/
theorem Part.cutBays_cut_shape (p : Part) (bs : List Nat) :
    ∃ run, (p.cutBays bs).cut = { p.cut with list := p.cut.list.filter (· ∉ bs), run := run } := by
  induction bs generalizing p with
  | nil => exact ⟨p.cut.run, by simp [cutBays]⟩
  | cons b bs ih =>
    obtain ⟨run, cut⟩ := ih (p.cutBay b)
    obtain ⟨run', cut'⟩ := p.cutBay_cut_shape b
    refine ⟨run, ?_⟩
    rw [cutBays_cons, cut, cut']
    simp [removeSet, Bool.and_comm]

theorem Part.cutBays_all_list (p : Part) : (p.cutBays p.cut.list).cut.list = [] := by
  obtain ⟨run, cut⟩ := p.cutBays_cut_shape p.cut.list
  rw [cut]
  simp

theorem Part.cutBays_node?_other (p : Part) {bs : List Nat} {b : Nat} (other : b ∉ bs) : (p.cutBays bs).fm.node? b = p.fm.node? b := by
  induction bs generalizing p with
  | nil => rfl
  | cons c bs ih =>
    obtain ⟨differ, later⟩ := List.ne_and_not_mem_of_not_mem_cons other
    rw [cutBays_cons, ih _ later, cutBay_node?_other _ differ]

theorem Part.cutBays_node?_still {p : Part} (bs : List Nat) {b : Nat} {r : BayRec} (node : p.fm.node? b = some r)
    (still : r.nextTag = none) : (p.cutBays bs).fm.node? b = some r := by
  induction bs generalizing p with
  | nil => exact node
  | cons c bs ih =>
    rw [cutBays_cons]
    refine ih ?_
    by_cases same : b = c
    · subst same
      have stays : ∀ r' n, p.fm.node? b = some r' → r'.nextTag ≠ some n := by
        intro r' n node' next
        rw [node] at node'
        cases node'
        rw [still] at next
        cases next
      rw [cutBay_of_still stays]
      exact node
    · rw [cutBay_node?_other _ same, node]

/-- R114: each of the bays that has a next tag moves to it. -/
theorem Part.cutBays_node? {p : Part} {bs : List Nat} {b n : Nat} {r : BayRec} (mem : b ∈ bs) (node : p.fm.node? b = some r)
    (next : r.nextTag = some n) : ∃ target, (p.cutBays bs).fm.node? b = some { r.arrived n with target := target } := by
  induction bs generalizing p with
  | nil => cases mem
  | cons c bs ih =>
    rw [cutBays_cons]
    by_cases same : b = c
    · subst same
      obtain ⟨target, moved⟩ := cutBay_node? node next
      exact ⟨target, cutBays_node?_still bs moved rfl⟩
    · exact ih (List.mem_of_ne_of_mem same mem) ((cutBay_node?_other _ same).trans node)

/-- R125: distinct bays with a next tag are all counted. -/
theorem Part.cutBays_run {p : Part} {bs : List Nat} (distinct : bs.Nodup)
    (moving : ∀ b ∈ bs, ∃ r, p.fm.node? b = some r ∧ r.nextTag.isSome = true) :
    (p.cutBays bs).cut.run = p.cut.run.map fun x => { x with moved := x.moved + bs.length } := by
  induction bs generalizing p with
  | nil => cases h : p.cut.run <;> simp [cutBays, h]
  | cons b bs ih =>
    obtain ⟨fresh, distinct⟩ := List.nodup_cons.1 distinct
    obtain ⟨⟨r, node, next⟩, moving⟩ := List.forall_mem_cons.1 moving
    obtain ⟨n, next⟩ := Option.isSome_iff_exists.1 next
    have moving' : ∀ c ∈ bs, ∃ r, (p.cutBay b).fm.node? c = some r ∧ r.nextTag.isSome = true := fun c mem => by
      have differ : c ≠ b := fun same => fresh (same ▸ mem)
      rw [cutBay_node?_other _ differ]
      exact moving c mem
    rw [cutBays_cons, ih distinct moving', cutBay_cut node next]
    cases p.cut.run with
    | none => rfl
    | some x =>
      have sum : x.moved + 1 + bs.length = x.moved + (b :: bs).length := by
        rw [List.length_cons]
        omega
      exact congrArg (fun m => some { x with moved := m }) sum

theorem Part.cutBays_slu_of_no_pins {p : Part} (bs : List Nat) (noPins : p.zt.pins = []) :
    (p.cutBays bs).slu = p.slu ∧ (p.cutBays bs).zt.pins = [] := by
  induction bs generalizing p with
  | nil => exact ⟨rfl, noPins⟩
  | cons b bs ih =>
    obtain ⟨slu, pins⟩ := cutBay_slu_of_no_pins b noPins
    obtain ⟨slu', pins'⟩ := ih pins
    exact ⟨slu'.trans slu, pins'⟩

/-! ### The completion (R126) -/

/-- R126: the part once a completed cutover has stopped its timers and been reported. -/
def Part.cutoverEnded (cause : EndCause) (p : Part) : Part :=
  let p := p.mapCut fun c => { c with stepTimer := .stopped, deadline := .stopped }
  match p.cut.run with
  | some r => p.raise (.cutoverDone r.listed r.moved cause (p.fm.clock - r.start))
  | none => p

/-- R126: an allocation, while the floor is RUNNING alone. -/
def Part.allocateIfRunning (p : Part) : Part :=
  match p.fm.state with
  | .running => p.allocate
  | .survey => p
  | .unconfigured => p

theorem Part.completeCutover_eq (cause : EndCause) (p : Part) :
    p.completeCutover cause = ((p.cutoverEnded cause).allocateIfRunning.mapCut fun c => { c with run := none }).returnToIdle := rfl

theorem Part.cutoverEnded_eq (cause : EndCause) (p : Part) : ∃ rs, p.cutoverEnded cause =
    { p with slu := p.slu.raiseAll rs p.fm.clock, cut := { p.cut with stepTimer := .stopped, deadline := .stopped } }
      ∧ rs = p.cut.run.toList.map fun r => .cutoverDone r.listed r.moved cause (p.fm.clock - r.start) := by
  obtain ⟨slu, cbm, fm, pmon, rsq, zt, ⟨list, mode, interval, limit, step, deadline, run⟩, afa, fresh⟩ := p
  cases run with
  | none => exact ⟨[], rfl, rfl⟩
  | some r => exact ⟨[.cutoverDone r.listed r.moved cause (fm.clock - r.start)], rfl, rfl⟩

theorem Part.Keeps.allocateIfRunning (p : Part) : p.Keeps p.allocateIfRunning := by
  unfold Part.allocateIfRunning
  split
  · exact allocate p
  · exact refl p
  · exact refl p

theorem Part.allocateIfRunning_of_running {p : Part} (running : p.fm.state = .running) : p.allocateIfRunning = p.allocate := by
  rw [allocateIfRunning, running]

theorem Part.allocateIfRunning_blocks (p : Part) :
    p.allocateIfRunning.pmon = p.pmon ∧ p.allocateIfRunning.cut = p.cut ∧ p.allocateIfRunning.rsq = p.rsq := by
  unfold allocateIfRunning
  split
  · exact ⟨p.allocate_pmon, p.allocate_cut, p.allocate_rsq⟩
  · exact ⟨rfl, rfl, rfl⟩
  · exact ⟨rfl, rfl, rfl⟩

theorem Part.allocateIfRunning_node? {p : Part} {b : Nat} {r : BayRec} (node : p.fm.node? b = some r) :
    ∃ q, p.allocateIfRunning.fm.node? b = some { r with q := q } := by
  unfold allocateIfRunning
  split
  · cases supply : p.afa.supply with
    | none =>
      rw [allocate, supply]
      exact ⟨_, node⟩
    | some f => exact allocate_node? supply node
  · exact ⟨_, node⟩
  · exact ⟨_, node⟩

theorem Part.decideAtIdle_seq {p : Part} (notCutting : p.rsq.seq ≠ .cutting) : p.decideAtIdle.rsq.seq ≠ .cutting := by
  unfold decideAtIdle
  split
  · exact nofun
  · exact notCutting

theorem Part.returnToIdle_seq (p : Part) : p.returnToIdle.rsq.seq ≠ .cutting := decideAtIdle_seq (by exact nofun)

theorem Part.returnToIdle_pmon (p : Part) : ∃ changed, p.returnToIdle.pmon = { p.pmon with changed := changed } := by
  unfold returnToIdle decideAtIdle
  split <;> exact ⟨_, rfl⟩

section
variable (cause : EndCause) (p : Part)

theorem Part.completeCutover_cut :
    (p.completeCutover cause).cut = { p.cut with stepTimer := .stopped, deadline := .stopped, run := none } := by
  obtain ⟨rs, ended, -⟩ := p.cutoverEnded_eq cause
  rw [completeCutover_eq, returnToIdle_cut, mapCut_cut, (allocateIfRunning_blocks _).2.1, ended]

theorem Part.completeCutover_seq : (p.completeCutover cause).rsq.seq ≠ .cutting := returnToIdle_seq _

theorem Part.completeCutover_pmon : ∃ changed, (p.completeCutover cause).pmon = { p.pmon with changed := changed } := by
  obtain ⟨rs, ended, -⟩ := p.cutoverEnded_eq cause
  obtain ⟨changed, pmon⟩ := ((p.cutoverEnded cause).allocateIfRunning.mapCut fun c => { c with run := none }).returnToIdle_pmon
  refine ⟨changed, ?_⟩
  rw [completeCutover_eq, pmon, mapCut_pmon, (allocateIfRunning_blocks _).1, ended]

/-- R126: a completion writes no bay but its grant. -/
theorem Part.completeCutover_node? {b : Nat} {r : BayRec} (node : p.fm.node? b = some r) :
    ∃ q, (p.completeCutover cause).fm.node? b = some { r with q := q } := by
  obtain ⟨rs, ended, -⟩ := p.cutoverEnded_eq cause
  rw [completeCutover_eq, returnToIdle_fm, mapCut_fm]
  exact allocateIfRunning_node? (by rw [ended]; exact node)

/-- R126: the end is reported before anything that the allocation reports. -/
theorem Part.completeCutover_slu {run : RunRecord} (started : p.cut.run = some run) :
    ∃ rs, (p.completeCutover cause).slu =
      p.slu.raiseAll (.cutoverDone run.listed run.moved cause (p.fm.clock - run.start) :: rs) p.fm.clock := by
  obtain ⟨rs, ended, reports⟩ := p.cutoverEnded_eq cause
  obtain ⟨more, raised⟩ := (Keeps.allocateIfRunning (p.cutoverEnded cause)).raised
  refine ⟨more, ?_⟩
  rw [completeCutover_eq, returnToIdle_slu, mapCut_slu, raised, ended, reports, started]
  rfl

section
variable {cause p} {f : Nat} (running : p.fm.state = .running) (supply : p.afa.supply = some f)
include running supply

/-- R126, R150: while the floor is RUNNING the completion allocates. -/
theorem Part.completeCutover_allocates :
    Allocates f p (p.completeCutover cause)
      ∧ (p.completeCutover cause).afa = { p.afa with timer := .running p.fm.clock p.afa.ai } := by
  obtain ⟨rs, ended, -⟩ := p.cutoverEnded_eq cause
  have running' : (p.cutoverEnded cause).fm.state = .running := by rw [ended]; exact running
  have supply' : (p.cutoverEnded cause).afa.supply = some f := by rw [ended]; exact supply
  have allocates : Allocates f p (p.cutoverEnded cause).allocate := by
    have shares := allocate_allocates supply'
    rw [ended] at shares ⊢
    exact shares
  rw [completeCutover_eq, allocateIfRunning_of_running running']
  constructor
  · exact allocates.congr (by rw [returnToIdle_zt, mapCut_zt]) (by rw [returnToIdle_fm, mapCut_fm]) (by rw [returnToIdle_cbm, mapCut_cbm])
  · rw [returnToIdle_afa, mapCut_afa, allocate_afa supply', ended]

end
end

/-! ### Every remaining bay (R116, R121, R123, R124) -/

section
variable (cause : EndCause) (p : Part)

theorem Part.cutRemaining_eq : p.cutRemaining cause = (p.cutBays p.cut.list).completeCutover cause := by
  rw [cutRemaining, completeIfEmpty, cutBays_all_list]
  rfl

theorem Part.cutRemaining_cut : (p.cutRemaining cause).cut = p.cut.over := by
  obtain ⟨run, cut⟩ := p.cutBays_cut_shape p.cut.list
  rw [cutRemaining_eq, completeCutover_cut, cut, Cut.over]
  simp

theorem Part.cutRemaining_seq : (p.cutRemaining cause).rsq.seq ≠ .cutting := by
  rw [cutRemaining_eq]
  exact completeCutover_seq cause _

theorem Part.cutRemaining_pmon : ∃ changed, (p.cutRemaining cause).pmon = { p.pmon with changed := changed } := by
  obtain ⟨changed, pmon⟩ := (p.cutBays p.cut.list).completeCutover_pmon cause
  exact ⟨changed, by rw [cutRemaining_eq, pmon, cutBays_pmon]⟩

theorem Part.cutRemaining_node? {b n : Nat} {r : BayRec} (mem : b ∈ p.cut.list) (node : p.fm.node? b = some r)
    (next : r.nextTag = some n) :
    ∃ r', (p.cutRemaining cause).fm.node? b = some r' ∧ r'.tag = n ∧ r'.nextTag = none ∧ r'.moves = min 65535 (r.moves + 1) := by
  obtain ⟨target, moved⟩ := cutBays_node? mem node next
  obtain ⟨q, node'⟩ := (p.cutBays p.cut.list).completeCutover_node? cause moved
  rw [cutRemaining_eq]
  exact ⟨_, node', rfl, rfl, rfl⟩

theorem Part.cutRemaining_node?_other {b : Nat} {r : BayRec} (other : b ∉ p.cut.list) (node : p.fm.node? b = some r) :
    ∃ q, (p.cutRemaining cause).fm.node? b = some { r with q := q } := by
  rw [cutRemaining_eq]
  exact (p.cutBays p.cut.list).completeCutover_node? cause ((cutBays_node?_other _ other).trans node)

theorem Part.cutRemaining_afa {f : Nat} (running : p.fm.state = .running) (supply : p.afa.supply = some f) :
    (p.cutRemaining cause).afa = { p.afa with timer := .running p.fm.clock p.afa.ai } := by
  have keeps := Keeps.cutBays p.cut.list p
  have allocates := completeCutover_allocates (cause := cause) (p := p.cutBays p.cut.list) (keeps.state.trans running)
    ((congrArg Afa.supply (cutBays_afa ..)).trans supply)
  rw [cutRemaining_eq, allocates.2, cutBays_afa, keeps.clock]

/-- R125, R126: where no pin can drop, the end of the cutover is the first thing reported. -/
theorem Part.cutRemaining_slu {run : RunRecord} (started : p.cut.run = some run) (noPins : p.zt.pins = [])
    (distinct : p.cut.list.Nodup) (moving : ∀ b ∈ p.cut.list, ∃ r, p.fm.node? b = some r ∧ r.nextTag.isSome = true) :
    ∃ rs, (p.cutRemaining cause).slu = p.slu.raiseAll
      (.cutoverDone run.listed (run.moved + p.cut.list.length) cause (p.fm.clock - run.start) :: rs) p.fm.clock := by
  have counted : (p.cutBays p.cut.list).cut.run = some { run with moved := run.moved + p.cut.list.length } := by
    rw [cutBays_run distinct moving, started, Option.map_some]
  obtain ⟨rs, slu⟩ := completeCutover_slu cause _ counted
  refine ⟨rs, ?_⟩
  rw [cutRemaining_eq, slu, (cutBays_slu_of_no_pins _ noPins).1, (Keeps.cutBays _ p).clock]

end

/-! ### Reports that come first (R172) -/

/-- Reports raised first stand first in the queue, whatever is raised after them. -/
theorem QueuedFirst.of_raised {rs more : List Report} {s t : Part} (raised : t.slu = (s.slu.raiseAll (rs ++ more) s.fm.clock).choose) :
    QueuedFirst rs s t := by
  intro busy on room
  have busy' : (s.slu.raiseAll (rs ++ more) s.fm.clock).tx ≠ .idle := by rwa [Slu.raiseAll_eq]
  obtain ⟨rest, queue⟩ := Slu.raiseAll_prefix (s.slu.raiseAll rs s.fm.clock) more s.fm.clock
  rw [raised, Slu.choose_busy _ busy', Slu.raiseAll_append, queue, Slu.raiseAll_queued _ on room]
  refine (List.take_append_of_le_length ?_).trans (List.take_of_length_le ?_) <;> simp

theorem Queued.of_raised {rs : List Report} {s t : Part} (raised : t.slu = (s.slu.raiseAll rs s.fm.clock).choose) : Queued rs s t := by
  intro busy on room
  rw [raised, Slu.raiseAll_choose_queue _ busy on room]

/-- R172: the first of the reports raised, where it is enabled and finds room. -/
theorem Slu.raiseAll_first {u : Slu} {r : Report} (rs : List Report) (c : Clock) (on : Enabled u r.code) (room : u.queue.length < 16) :
    (u.raiseAll (r :: rs) c).queue[u.queue.length]? = some ⟨r, c⟩ := by
  rw [raiseAll_cons]
  refine raiseAll_getElem? rs c ?_
  rw [raise_queue u r c on room]
  simp

end Sys2Proof.Machine

/-!
What ends or advances a cutover (O50, O51, O23, O22): the step timer, the deadline, HASTEN and SET PACING.
-/
namespace Sys2Proof.Machine

/-- R117: the bays that have a next tag are distinct, and each has one. -/
theorem Part.movingBays_nodup (p : Part) : p.movingBays.Nodup :=
  (p.fm.nodes_sorted.sublist (List.filter_sublist.map Prod.fst)).imp Nat.ne_of_lt

theorem Part.mem_movingBays {p : Part} {b : Nat} (mem : b ∈ p.movingBays) : ∃ r, p.fm.node? b = some r ∧ r.nextTag.isSome = true := by
  obtain ⟨⟨b, r⟩, kept, rfl⟩ := List.mem_map.1 mem
  obtain ⟨node, moving⟩ := List.mem_filter.1 kept
  exact ⟨r, (p.fm.mem_nodes b r).1 node, moving⟩

/-- R126: the report of a cutover that ends with its remaining bays is the first one queued. -/
theorem Part.cutRemaining_first (cause : EndCause) {p : Part} {run : RunRecord} (started : p.cut.run = some run)
    (noPins : p.zt.pins = []) (on : Enabled p.slu 5) (room : p.slu.queue.length < 16) (distinct : p.cut.list.Nodup)
    (moving : ∀ b ∈ p.cut.list, ∃ r, p.fm.node? b = some r ∧ r.nextTag.isSome = true) :
    (p.cutRemaining cause).slu.queue[p.slu.queue.length]? =
      some ⟨.cutoverDone run.listed (run.moved + p.cut.list.length) cause (p.fm.clock - run.start), p.fm.clock⟩ := by
  obtain ⟨rs, slu⟩ := p.cutRemaining_slu cause started noPins distinct moving
  rw [slu]
  exact Slu.raiseAll_first rs _ on room

/-! ### The step timer (R118) -/

section
variable {p : Part} {since : Clock} {span b n : Nat} {rest : List Nat} {r : BayRec}
  (timer : p.cut.stepTimer = .running since span) (passed : span ≤ (p.fm.clock - since).toNat + 1)
  (listed : p.cut.list = b :: rest) (once : b ∉ rest) (node : p.fm.node? b = some r) (next : r.nextTag = some n)
include listed once node next

theorem Part.cutBay_list_of_first : (p.cutBay b).cut.list = rest := by
  rw [cutBay_cut node next]
  dsimp only
  rw [listed, removeSet, List.filter_cons_of_neg (by simp), List.filter_eq_self]
  intro c mem
  exact decide_eq_true fun same => once (same ▸ mem)

include timer passed

theorem Part.stepExpiry_of_more (more : rest ≠ []) :
    p.stepExpiry = (p.cutBay b).mapCut fun c => { c with stepTimer := .running p.fm.clock p.cut.interval } := by
  have may : p.cut.stepTimer.mayExpire p.fm.clock = true := by
    rw [timer]
    exact decide_eq_true passed
  have left := cutBay_list_of_first listed once node next
  rw [stepExpiry, if_pos may, listed]
  show (if (p.cutBay b).cut.list.isEmpty then (p.cutBay b).completeCutover .paced else _) = _
  rw [left, if_neg (by simp [more])]
  have interval := (Keeps.cutBay b p).interval
  have clock := (Keeps.cutBay b p).clock
  rw [← interval, ← clock]
  rfl

theorem Part.stepExpiry_of_last (last : rest = []) : p.stepExpiry = (p.cutBay b).completeCutover .paced := by
  have may : p.cut.stepTimer.mayExpire p.fm.clock = true := by
    rw [timer]
    exact decide_eq_true passed
  have left := cutBay_list_of_first listed once node next
  rw [stepExpiry, if_pos may, listed]
  show (if (p.cutBay b).cut.list.isEmpty then (p.cutBay b).completeCutover .paced else _) = _
  rw [left, last]
  rfl

end

/-- Settles O50: one bay cuts over, and the completion follows where it was the last. -/
theorem stepExpiryMovesLowestBay : Obligations.StepExpiryMovesLowestBay := by
  unfold Obligations.StepExpiryMovesLowestBay
  intro since span b rest r n s timer passed listed once node next
  generalize bySelf : s.part = p at *
  obtain ⟨target, moved⟩ := Part.cutBay_node? node next
  have cut := Part.cutBay_cut node next
  have left := Part.cutBay_list_of_first listed once node next
  have clock := (Part.Keeps.cutBay b p).clock
  have runs : exec .stepTimerExpiry s = .next { s with part := p.stepExpiry.choose } := by rw [← bySelf]; rfl
  by_cases last : rest = []
  · have effect := Part.stepExpiry_of_last timer passed listed once node next last
    obtain ⟨q, node'⟩ := (p.cutBay b).completeCutover_node? .paced moved
    rw [effect] at runs
    refine ⟨_, _, runs, rfl, node', rfl, rfl, rfl, rfl, rfl, fun more => absurd last more, fun _ => ⟨?_, ?_, ?_⟩⟩
    · rw [Part.choose_cut, Part.completeCutover_cut, cut]
      rw [cut] at left
      dsimp only at left
      rw [left, last]
    · exact (p.cutBay b).completeCutover_seq .paced
    · intro old new run f zoneOld zoneNew differ started running supply
      have started' : (p.cutBay b).cut.run = some { run with moved := run.moved + 1 } := by rw [cut, started]; rfl
      have running' := (Part.Keeps.cutBay b p).state.trans running
      have supply' : (p.cutBay b).afa.supply = some f := (congrArg Afa.supply (Part.cutBay_afa ..)).trans supply
      obtain ⟨allocates, afa⟩ := Part.completeCutover_allocates (cause := .paced) running' supply'
      obtain ⟨more, slu⟩ := Part.completeCutover_slu .paced _ started'
      refine ⟨⟨p.cutBay b, Part.cutBay_moves node next zoneOld zoneNew differ, Part.cutBay_cbm .., allocates.congr rfl rfl rfl⟩, ?_, ?_⟩
      · rw [Part.choose_afa, afa, Part.cutBay_afa, clock]
      · refine QueuedFirst.of_raised (more := more) ?_
        rw [Part.choose_slu, slu, Part.cutBay_slu node next zoneOld differ, clock, List.append_assoc, Slu.raiseAll_append (u := p.slu)]
        rfl
  · have effect := Part.stepExpiry_of_more timer passed listed once node next last
    rw [effect] at runs
    refine ⟨_, _, runs, rfl, moved, rfl, rfl, rfl, rfl, rfl, fun _ => ?_, fun isLast => absurd isLast last⟩
    refine ⟨rfl, Part.cutBay_rsq .., Part.cutBay_pmon .., Part.cutBay_afa .., Part.cutBay_cbm ..,
      fun b' other => Part.cutBay_node?_other p other, ?_, fun old new zoneOld zoneNew differ => ⟨?_, ?_⟩⟩
    · rw [Part.choose_cut, Part.mapCut_cut, cut]
      rw [cut] at left
      dsimp only at left ⊢
      rw [left]
    · exact Part.cutBay_moves node next zoneOld zoneNew differ
    · refine Queued.of_raised ?_
      rw [Part.choose_slu, Part.mapCut_slu, Part.cutBay_slu node next zoneOld differ]

/-! ### The deadline (R113, R121) -/

/-- R113: the deadline is passed. -/
def Part.passDeadline (p : Part) : Part := p.mapCut fun c => { c with deadline := .passed }

theorem Part.deadlineExpiry_taken {p : Part} {limit : Nat} {run : RunRecord} (deadline : p.cut.deadline = .running limit)
    (cutting : p.rsq.seq = .cutting) (started : p.cut.run = some run) (counted : limit ≤ (p.fm.clock - run.start).toNat + 1) :
    p.deadlineExpiry = match p.cut.mode with
      | .vacant => p.passDeadline.cutRemaining .deadline
      | .step => p.passDeadline
      | .block => p.passDeadline := by
  have may : p.limitMayBeOver limit = true := by
    rw [limitMayBeOver, started]
    exact decide_eq_true counted
  rw [deadlineExpiry, deadline]
  dsimp only
  rw [if_pos ⟨cutting, may⟩]
  rfl

/-- Settles O51: the deadline passes, and under VACANT pacing every remaining bay cuts over. -/
theorem deadlineExpiryByPacing : Obligations.DeadlineExpiryByPacing := by
  unfold Obligations.DeadlineExpiryByPacing
  intro limit run s deadline cutting started counted
  have runs : exec .deadlineExpiry s = .next { s with part := s.part.deadlineExpiry.choose } := rfl
  rw [Part.deadlineExpiry_taken deadline cutting started counted] at runs
  refine ⟨fun step => ?step, fun vacant => ?vacant⟩
  case step =>
    rw [step] at runs
    exact ⟨_, runs, rfl, fun busy => Slu.choose_busy _ busy⟩
  case vacant =>
    rw [vacant] at runs
    refine ⟨_, runs, rfl, s.part.passDeadline.cutRemaining_cut .deadline,
      s.part.passDeadline.cutRemaining_seq .deadline, fun b mem r n node next => ?_, fun b other r node => ?_,
      fun running f supply => ?_, fun noPins distinct moving => ?_⟩
    · exact s.part.passDeadline.cutRemaining_node? .deadline mem node next
    · exact s.part.passDeadline.cutRemaining_node?_other .deadline other node
    · exact s.part.passDeadline.cutRemaining_afa .deadline running supply
    · obtain ⟨more, slu⟩ := s.part.passDeadline.cutRemaining_slu .deadline started noPins distinct moving
      exact QueuedFirst.of_raised (more := more) (congrArg Slu.choose slu)

/-! ### HASTEN (R124, R184) -/

/-- A request whose effect keeps what the operations inside an event keep. -/
theorem takeRequest_answersKept (kind number : Byte) (handle : Part → Part × Reply) (s : State) (q : Part) (status : Status)
    (detail : Nat) (fields : List Byte) (free : s.part.slu.inFlight = none)
    (handled : handle { s.part with slu := { s.part.slu with assembler := .hunting, inFlight := some ⟨kind, number⟩ } }
      = (q, ⟨status, detail, fields⟩))
    (kept : Part.Keeps { s.part with slu := { s.part.slu with assembler := .hunting, inFlight := some ⟨kind, number⟩ } } q) :
    ∃ t, Host.Outcome.next (φ := Fault) (ρ := Refusal)
          { s with part := s.part.takeRequest kind number (replying handle) } = .next t
      ∧ Answers kind number status detail fields t ∧ t.part.slu.queue = q.slu.queue
      ∧ t = { s with part := { q with slu := t.part.slu } } := by
  obtain ⟨t, runs, answers, keeps, eq⟩ := takeRequest_answersOnLink kind number handle s q status detail fields free handled
    kept.assembler kept.link.1
  exact ⟨t, runs, answers, keeps.1, eq⟩

theorem handleHasten_notNow {p : Part} (notCutting : p.rsq.seq ≠ .cutting) : handleHasten [] p = (p, .plain .notNow 0) := by
  rw [handleHasten, lengthIs_of_eq (by rfl), checked_none]
  cases state : p.rsq.seq with
  | cutting => exact absurd state notCutting
  | idle | solving => rfl

theorem handleHasten_done {p : Part} (cutting : p.rsq.seq = .cutting) :
    handleHasten [] p = (p.cutRemaining .hasten, .done [byteOf p.cut.list.length]) := by
  rw [handleHasten, lengthIs_of_eq (by rfl), checked_none, cutting]

/-- Settles O23: every remaining bay cuts over and the cutover completes. -/
theorem hastenEndsCutover : Obligations.HastenEndsCutover := by
  unfold Obligations.HastenEndsCutover
  refine fun number s free => ⟨fun notCutting => ?notNow, fun cutting => ?done⟩
  case notNow =>
    exact takeRequest_answersOnly 0x07 number _ s .notNow 0 [] free fun p same => handleHasten_notNow (same ▸ notCutting)
  case done =>
    generalize taken : ({ s.part with slu := { s.part.slu with assembler := .hunting, inFlight := some ⟨0x07, number⟩ } } : Part) = p
    have handled : handleHasten [] p = (p.cutRemaining .hasten, .done [byteOf s.part.cut.list.length]) := by
      rw [handleHasten_done (by rw [← taken]; exact cutting), ← taken]
    obtain ⟨t, runs, answers, queue, eq⟩ := takeRequest_answersKept 0x07 number (handleHasten []) s
      (p.cutRemaining .hasten) .done 0 _ free
      (by rw [taken]; exact handled) (by rw [taken]; exact .cutRemaining .hasten p)
    obtain ⟨changed, pmon⟩ := p.cutRemaining_pmon .hasten
    refine ⟨t, runs, answers, ?_, ?_, ?_, ?_, ?_, fun b mem r n node next => ?_, fun b other r node => ?_,
      fun run started noPins on room distinct moving => ?_⟩
    · rw [eq]
      exact (p.cutRemaining_cut .hasten).trans (by rw [← taken]; rfl)
    · rw [eq]
      exact p.cutRemaining_seq .hasten
    · rw [eq]
    · rw [eq]
      exact (congrArg Pmon.baseline pmon).trans (by rw [← taken])
    · rw [eq]
      exact (congrArg Pmon.edges pmon).trans (by rw [← taken])
    · rw [eq]
      exact p.cutRemaining_node? .hasten (by rw [← taken]; exact mem) (by rw [← taken]; exact node) next
    · rw [eq]
      exact p.cutRemaining_node?_other .hasten (by rw [← taken]; exact other) (by rw [← taken]; exact node)
    · have first := Part.cutRemaining_first .hasten (p := p) (by rw [← taken]; exact started) (by rw [← taken]; exact noPins)
        (by rw [← taken]; exact on) (by rw [← taken]; exact room) (by rw [← taken]; exact distinct) (by rw [← taken]; exact moving)
      rw [queue]
      rw [← taken] at first ⊢
      exact first

/-! ### SET PACING during a cutover (R122, R123) -/

/-- R122, R123: the values written and the deadline moved, before the new mode acts. -/
def Part.paced (mode : Pacing) (interval limit : Nat) (d : Deadline) (n : Nat) (p : Part) : Part :=
  { p with cut := { p.cut with mode := mode, interval := clamp 1 60 interval, limit := clamp 60 7200 limit, deadline := d }, fresh := n }

/-- R123: what the new mode does at once. -/
def Part.switched (p : Part) : Part :=
  match p.cut.mode with
  | .block => p.cutRemaining .switch
  | .step => p.mapCut fun c => { c with stepTimer := p.timerFor c.interval }
  | .vacant =>
    let p := p.mapCut fun c => { c with stepTimer := .stopped }
    if p.cut.deadline = .passed then p.cutRemaining .switch else (p.cutBays p.silentListed).completeIfEmpty .switch

/-- R122: the values written. -/
def Part.repacing (mode : Pacing) (interval limit : Nat) (p : Part) : Part :=
  p.mapCut fun c => { c with mode := mode, interval := clamp 1 60 interval, limit := clamp 60 7200 limit }

theorem Part.Keeps.repacing (mode : Pacing) (interval limit : Nat) (p : Part) :
    (p.repacing mode interval limit).Keeps (p.setPacing mode interval limit) := by
  show (p.repacing mode interval limit).Keeps (match p.rsq.seq with
    | .cutting => (p.repacing mode interval limit).repace
    | .idle => p.repacing mode interval limit
    | .solving => p.repacing mode interval limit)
  cases p.rsq.seq with
  | cutting => exact .repace _
  | idle | solving => exact .refl _

theorem Part.setPacing_of_cutting {p : Part} (mode : Pacing) (interval limit : Nat) (cutting : p.rsq.seq = .cutting) :
    ∃ d n, MovedDeadline p.fm.clock p.cut.run (clamp 60 7200 limit) p.cut.deadline d
      ∧ p.setPacing mode interval limit = (p.paced mode interval limit d n).switched := by
  generalize written : p.repacing mode interval limit = q
  obtain ⟨d, n, eq, moved⟩ := q.moveDeadline_spec q.cut.limit
  have repaced : p.setPacing mode interval limit = q.repace := by
    have state : q.rsq.seq = .cutting := by rw [← written]; exact cutting
    show (match p.rsq.seq with
      | .cutting => (p.repacing mode interval limit).repace
      | .idle => p.repacing mode interval limit
      | .solving => p.repacing mode interval limit) = q.repace
    rw [cutting, written]
  refine ⟨d, n, ?_, ?_⟩
  · rw [← written] at moved
    exact moved
  · rw [repaced, repace, eq, ← written]
    rfl

/-- R123: the listed bays that answer are those that are not SILENT. -/
theorem answeringOf_eq (p : Part) : p.cut.list.filter (· ∉ p.silentListed) = answeringOf p := by
  refine List.filter_congr fun b mem => ?_
  unfold Part.silentListed
  by_cases silent : (p.fm.node? b).any (fun r => r.health == .silent) = true <;> simp [List.mem_filter, mem, silent]

theorem silentOf_add_answeringOf (p : Part) : (silentOf p).length + (answeringOf p).length = p.cut.list.length := by
  have split := List.length_eq_length_filter_add (l := p.cut.list) fun b => (p.fm.node? b).any fun r => r.health == .silent
  exact split.symm

theorem silentOf_of_none_answering {p : Part} (none : answeringOf p = []) : silentOf p = p.cut.list := by
  refine List.filter_eq_self.2 fun b mem => ?_
  have answers := List.filter_eq_nil_iff.1 none b mem
  simpa using answers

section
variable {p : Part} (d : Deadline) (n interval limit : Nat)

theorem Part.switched_block : (p.paced .block interval limit d n).switched = (p.paced .block interval limit d n).cutRemaining .switch := rfl

theorem Part.switched_step : (p.paced .step interval limit d n).switched =
    (p.paced .step interval limit d n).mapCut fun c => { c with stepTimer := .running p.fm.clock (clamp 1 60 interval) } := rfl

/-- R123: VACANT pacing with nothing left to wait for. -/
theorem Part.switched_vacant_all (done : d = .passed ∨ answeringOf p = []) : (p.paced .vacant interval limit d n).switched =
    ((p.paced .vacant interval limit d n).mapCut fun c => { c with stepTimer := .stopped }).cutRemaining .switch := by
  show (if d = .passed then _ else _) = _
  by_cases passed : d = .passed
  · rw [if_pos passed]
  · have silent : p.silentListed = p.cut.list := silentOf_of_none_answering (done.resolve_left passed)
    rw [if_neg passed]
    exact congrArg (fun bs => (((p.paced .vacant interval limit d n).mapCut fun c =>
      { c with stepTimer := .stopped }).cutBays bs).completeIfEmpty .switch) silent

/-- R123: VACANT pacing with answering bays left. -/
theorem Part.switched_vacant_some (notPassed : d ≠ .passed) (left : answeringOf p ≠ []) :
    (p.paced .vacant interval limit d n).switched =
      ((p.paced .vacant interval limit d n).mapCut fun c => { c with stepTimer := .stopped }).cutBays (silentOf p) := by
  show (if d = .passed then _ else _) = _
  rw [if_neg notPassed]
  generalize paced : ((p.paced .vacant interval limit d n).mapCut fun c => { c with stepTimer := .stopped }) = q
  have list : (q.cutBays (silentOf p)).cut.list = answeringOf p := by
    obtain ⟨run, cut⟩ := q.cutBays_cut_shape (silentOf p)
    rw [cut, ← paced]
    exact answeringOf_eq p
  have silent : q.silentListed = silentOf p := by rw [← paced]; rfl
  rw [silent, completeIfEmpty, list, if_neg (by simp [left])]

end

/-- R122, R183: a SET PACING during a cutover. -/
theorem exec_setPacing_cutting (mode : Pacing) (number interval hi lo : Byte) {s : State} (free : s.part.slu.inFlight = none)
    (cutting : s.part.rsq.seq = .cutting) :
    ∃ t p d n, p = { s.part with slu := { s.part.slu with assembler := .hunting, inFlight := some ⟨0x06, number⟩ } }
      ∧ exec (.setPacing number [mode.code, interval, hi, lo]) s = .next t
      ∧ MovedDeadline s.part.fm.clock s.part.cut.run (clamp 60 7200 (word16 hi lo)) s.part.cut.deadline d
      ∧ Answers 0x06 number .done 0 ([mode.code, byteOf (clamp 1 60 interval.toNat)] ++ bytes16 (clamp 60 7200 (word16 hi lo))
        ++ [byteOf (s.part.cut.list.length - (p.paced mode interval.toNat (word16 hi lo) d n).switched.cut.list.length)]) t
      ∧ t.part.slu.queue = (p.paced mode interval.toNat (word16 hi lo) d n).switched.slu.queue
      ∧ t = { s with part := { (p.paced mode interval.toNat (word16 hi lo) d n).switched with slu := t.part.slu } } := by
  generalize taken : ({ s.part with slu := { s.part.slu with assembler := .hunting, inFlight := some ⟨0x06, number⟩ } } : Part) = p
  obtain ⟨d, n, moved, paces⟩ := Part.setPacing_of_cutting (p := p) mode interval.toNat (word16 hi lo) (by rw [← taken]; exact cutting)
  have kept := Part.Keeps.repacing mode interval.toNat (word16 hi lo) p
  have handled := handleSetPacing_mode mode interval hi lo p
  dsimp only at handled
  rw [kept.interval, kept.limit, paces] at handled
  have list : p.cut.list = s.part.cut.list := by rw [← taken]
  rw [list] at handled
  obtain ⟨t, runs, answers, queue, eq⟩ := takeRequest_answersOnLink 0x06 number (handleSetPacing [mode.code, interval, hi, lo]) s
    _ .done 0 _ free (by rw [taken]; exact handled) (by rw [← paces, kept.assembler, ← taken]; rfl)
    (by rw [← paces, kept.link.1, ← taken]; rfl)
  refine ⟨t, p, d, n, rfl, runs, by rw [← taken] at moved; exact moved, answers, queue.1, eq⟩

/-- R123: some bays have moved to their next tags. -/
def Arrived (p q : Part) (bs : List Nat) : Prop := ∀ b ∈ bs, ∀ r n, p.fm.node? b = some r → r.nextTag = some n →
  ∃ r', q.fm.node? b = some r' ∧ r'.tag = n ∧ r'.nextTag = none

/-- R126: the end of the cutover is the first report queued. -/
def ReportsSwitch (p q : Part) : Prop := ∀ run, p.cut.run = some run → p.zt.pins = [] → Enabled p.slu 5 →
  p.slu.queue.length < 16 → p.cut.list = p.movingBays →
  q.slu.queue[p.slu.queue.length]? =
    some ⟨.cutoverDone run.listed (run.moved + p.cut.list.length) .switch (p.fm.clock - run.start), p.fm.clock⟩

theorem Part.cutRemaining_arrived (cause : EndCause) (p : Part) : Arrived p (p.cutRemaining cause) p.cut.list := by
  intro b mem r n node next
  obtain ⟨r', node', tag, nextTag, -⟩ := p.cutRemaining_node? cause mem node next
  exact ⟨r', node', tag, nextTag⟩

theorem Part.cutBays_arrived (p : Part) (bs : List Nat) : Arrived p (p.cutBays bs) bs := by
  intro b mem r n node next
  obtain ⟨target, moved⟩ := cutBays_node? mem node next
  exact ⟨_, moved, rfl, rfl⟩

theorem Part.cutRemaining_reportsSwitch (p : Part) : ReportsSwitch p (p.cutRemaining .switch) := by
  intro run started noPins on room listed
  exact cutRemaining_first .switch started noPins on room (by rw [listed]; exact p.movingBays_nodup)
    (by rw [listed]; exact fun b mem => mem_movingBays mem)

/-- Settles O22: the deadline is moved and the new mode acts, on every remaining bay, on the SILENT ones or on none. -/
theorem setPacingActsOnCutover : Obligations.SetPacingActsOnCutover := by
  unfold Obligations.SetPacingActsOnCutover
  intro number interval hi lo s free cutting held limit
  dsimp only
  refine ⟨fun code above => ?outOfRange, ?block, ?step, ?vacant⟩
  case outOfRange =>
    exact takeRequest_answersOnly 0x06 number _ s .outOfRange 1 [] free fun p _ => handleSetPacing_outOfRange interval hi lo p above
  case block =>
    obtain ⟨t, p, d, n, taken, runs, -, answers, queue, eq⟩ := exec_setPacing_cutting .block number interval hi lo free cutting
    rw [Part.switched_block] at answers queue eq
    generalize paced : p.paced .block interval.toNat (word16 hi lo) d n = q at *
    have cut := q.cutRemaining_cut .switch
    have arrived := q.cutRemaining_arrived .switch
    have reports := q.cutRemaining_reportsSwitch
    rw [cut, ← paced, taken] at answers
    refine ⟨t, runs, answers, ?_, ?_, ?_, ?_⟩
    · rw [eq]
      refine cut.trans ?_
      rw [← paced, taken]
      rfl
    · rw [eq]
      exact q.cutRemaining_seq .switch
    · rw [eq]
      rw [← paced, taken] at arrived ⊢
      exact arrived
    · rw [queue]
      rw [← paced, taken] at reports ⊢
      exact reports
  case step =>
    obtain ⟨t, p, d, n, taken, runs, deadline, answers, queue, eq⟩ := exec_setPacing_cutting .step number interval hi lo free cutting
    rw [Part.switched_step] at answers queue eq
    have none : s.part.cut.list.length - p.cut.list.length = 0 := by rw [taken]; exact Nat.sub_self _
    dsimp only [Part.mapCut_cut, Part.paced] at answers
    rw [none] at answers
    refine ⟨t, runs, answers, ?_, ?_, ?_, ?_, ?_, ?_, ?_, ?_, ?_⟩ <;> rw [eq, taken]
    · rfl
    · exact deadline
    all_goals rfl
  case vacant =>
    obtain ⟨t, p, d, n, taken, runs, deadline, answers, queue, eq⟩ := exec_setPacing_cutting .vacant number interval hi lo free cutting
    refine ⟨t, d, runs, by rw [eq], deadline, fun ends => ?all, fun notPassed left => ?some⟩
    case all =>
      have ends' : d = .passed ∨ answeringOf p = [] := by rw [taken]; exact ends
      rw [Part.switched_vacant_all _ _ _ _ ends'] at answers queue eq
      generalize paced : ((p.paced .vacant interval.toNat (word16 hi lo) d n).mapCut fun c => { c with stepTimer := .stopped }) = q at *
      have cut := q.cutRemaining_cut .switch
      have arrived := q.cutRemaining_arrived .switch
      have reports := q.cutRemaining_reportsSwitch
      rw [cut, ← paced, taken] at answers
      refine ⟨answers, ?_, ?_, ?_, ?_⟩
      · rw [eq]
        refine cut.trans ?_
        rw [← paced, taken]
        rfl
      · rw [eq]
        exact q.cutRemaining_seq .switch
      · rw [eq]
        rw [← paced, taken] at arrived ⊢
        exact arrived
      · rw [queue]
        rw [← paced, taken] at reports ⊢
        exact reports
    case some =>
      have left' : answeringOf p ≠ [] := by rw [taken]; exact left
      have silent : silentOf p = silentOf s.part := by rw [taken]; rfl
      rw [Part.switched_vacant_some _ _ _ _ notPassed left', silent] at answers queue eq
      generalize paced : ((p.paced .vacant interval.toNat (word16 hi lo) d n).mapCut fun c => { c with stepTimer := .stopped }) = q at *
      obtain ⟨run, cut⟩ := q.cutBays_cut_shape (silentOf s.part)
      have answering : q.cut.list.filter (· ∉ silentOf s.part) = answeringOf s.part := by
        rw [← paced, taken]
        exact answeringOf_eq s.part
      rw [answering] at cut
      have arrived := q.cutBays_arrived (silentOf s.part)
      have fm : q.fm = s.part.fm := by rw [← paced, taken]; rfl
      have count : s.part.cut.list.length - (answeringOf s.part).length = (silentOf s.part).length := by
        have sum := silentOf_add_answeringOf s.part
        omega
      rw [cut] at answers
      dsimp only at answers
      rw [count] at answers
      refine ⟨answers, ?_, fun listed => ?_, ?_, fun b other => ?_, ?_, ?_, ?_, ?_⟩
      · rw [eq]
        dsimp only
        rw [cut, ← paced, taken]
        rfl
      · have distinct : (silentOf s.part).Nodup := by
          refine List.Nodup.filter _ ?_
          rw [listed]
          exact s.part.movingBays_nodup
        have moving : ∀ b ∈ silentOf s.part, ∃ r, q.fm.node? b = some r ∧ r.nextTag.isSome = true := by
          intro b mem
          have mem' : b ∈ s.part.cut.list := List.mem_of_mem_filter mem
          rw [listed] at mem'
          rw [fm]
          exact Part.mem_movingBays mem'
        rw [eq]
        dsimp only
        rw [Part.cutBays_run distinct moving, ← paced, taken]
        rfl
      · rw [eq]
        unfold Arrived at arrived
        rw [fm] at arrived
        exact arrived
      · rw [eq]
        dsimp only
        rw [Part.cutBays_node?_other _ other, fm]
      · rw [eq]
        dsimp only
        rw [Part.cutBays_rsq, ← paced, taken]
        rfl
      · rw [eq]
        dsimp only
        rw [Part.cutBays_pmon, ← paced, taken]
        rfl
      · rw [eq]
        dsimp only
        rw [Part.cutBays_cbm, ← paced, taken]
        rfl
      · rw [eq]
        dsimp only
        rw [Part.cutBays_afa, ← paced, taken]
        rfl

end Sys2Proof.Machine

/-!
A failed POLL or DRIVE (R21, R23, R25, R28, R34, R120): the cause that R21's judging gives, what the next grant leaves of the monitor
and the sequencer, the cutover of one visited bay, and the obligation that these make up.
-/
namespace Sys2Proof.Machine

/-! ### The cause of a failure (R21) -/

/-- R21: a failed reply is judged to have the cause of its first failing case. -/
theorem judgeReply_of_failed {bay want : Nat} {first : Option Byte} {chars : List RxChar} {cause : FailureCause}
    (failed : FailedReply bay want first chars cause) : judgeReply bay want first chars = some cause := by
  have framing : (chars.any (fun c => !c.clean) || decide (want < chars.length)) = true ↔ ¬ AllClean chars ∨ want < chars.length := by
    rw [Bool.or_eq_true, any_not_clean_iff, decide_eq_true_iff]
  have check : (!checkHolds bay chars || (first.any fun b => (chars.head?.map RxChar.data) != some b)) = true
      ↔ ¬ SumHolds bay chars ∨ ∃ b, first = some b ∧ chars.head?.map RxChar.data ≠ some b := by
    rw [Bool.or_eq_true, Bool.not_eq_true', ← Bool.not_eq_true, checkHolds_iff]
    cases first <;> simp
  unfold judgeReply
  rcases failed with ⟨empty, rfl⟩ | ⟨received, bad, rfl⟩ | ⟨received, clean, short, rfl⟩ | ⟨received, clean, length, bad, rfl⟩
  · rw [if_pos (List.isEmpty_iff.2 empty)]
  · rw [if_neg (mt List.isEmpty_iff.1 received), if_pos (framing.2 bad)]
  · have framed : ¬ (¬ AllClean chars ∨ want < chars.length) := fun bad => bad.elim (· clean) (by omega)
    rw [if_neg (mt List.isEmpty_iff.1 received), if_neg (mt framing.1 framed), if_pos short]
  · have framed : ¬ (¬ AllClean chars ∨ want < chars.length) := fun bad => bad.elim (· clean) (by omega)
    rw [if_neg (mt List.isEmpty_iff.1 received), if_neg (mt framing.1 framed), if_neg (by omega), if_pos (check.2 bad)]

/-! ### What a grant leaves (R36) -/

/-- A grant writes the cell bus, and completes at most one round, which the floor model counts. -/
theorem Part.arbitrate_cases (p : Part) :
    (∃ rounds cbm, p.arbitrate = { p with cbm := cbm, fm := { p.fm with surveyRounds := rounds } })
      ∨ (SurveyEndsNext p ∧ ∃ cbm, p.arbitrate =
          { (p.mapFm fun f => { f with surveyRounds := f.surveyRounds + 1 }).endSurvey with cbm := cbm }) := by
  obtain ⟨bus, grant⟩ | ⟨b, pair, grant⟩ | grant := p.grantWith_cases Part.grantPolling <;> rw [arbitrate, grant]
  · exact .inl ⟨p.fm.surveyRounds, _, rfl⟩
  · exact .inl ⟨p.fm.surveyRounds, _, rfl⟩
  · unfold grantPolling
    dsimp only
    split
    · exact .inl ⟨p.fm.surveyRounds, _, rfl⟩
    · rw [completeRound, countRound_mapCbm, countRound_mapCbm]
      have same := (((p.countRound.mapCbm fun c => { c with driveRun := 0 }).mapCbm
        fun c => { c with roundNumber := (c.roundNumber + 1) % 65536, pollCursor := 0 })).pollOrHold_sameButCbm
      rw [same]
      by_cases ends : SurveyEndsNext p
      · rw [countRound_of_ending ends]
        exact .inr ⟨ends, _, rfl⟩
      · rw [countRound_of_not_ending ends]
        by_cases counts : p.fm.state = .survey ∧ p.fm.surveyOver = false
        · rw [if_pos counts]
          exact .inl ⟨_, _, rfl⟩
        · rw [if_neg counts]
          exact .inl ⟨p.fm.surveyRounds, _, rfl⟩

/-- R12: the grant leaves the edges, but for those that the survey's end settles. -/
theorem Part.arbitrate_edge? (p : Part) (e : Nat) :
    p.arbitrate.pmon.edge? e = p.pmon.edge? e
      ∨ (SurveyEndsNext p ∧ p.arbitrate.pmon.edge? e = (p.pmon.edge? e).map Edge.settleAtEnd) := by
  obtain ⟨rounds, cbm, eq⟩ | ⟨ends, cbm, eq⟩ := p.arbitrate_cases
  · rw [eq]
    exact .inl rfl
  · rw [eq]
    exact .inr ⟨ends, p.pmon.edge?_mapEdges Edge.settleAtEnd e⟩

theorem Part.arbitrate_seq {p : Part} (notCutting : p.rsq.seq ≠ .cutting) : p.arbitrate.rsq.seq ≠ .cutting := by
  obtain ⟨rounds, cbm, eq⟩ | ⟨-, cbm, eq⟩ := p.arbitrate_cases <;> rw [eq]
  · exact notCutting
  · exact nofun

theorem Part.arbitrate_node? (p : Part) (b : Nat) : p.arbitrate.fm.node? b = p.fm.node? b := FloorModel.node?_congr p.arbitrate_bays b

theorem Edge.settleAtEnd_candidate {x : Edge} (none : x.candidate = none) : x.settleAtEnd.candidate = Option.none := by
  unfold settleAtEnd
  split
  · rfl
  · exact none

/-! ### A visited bay (R119, R120) -/

/-- R119, R120, R125: a bay that a visit cuts over; the last one completes the cutover. -/
def Part.cutVisited (b : Nat) (p : Part) : Part := (p.cutBay b).completeIfEmpty .paced

section
variable (b : Nat) (p : Part)

theorem Part.Keeps.cutVisited : p.Keeps (p.cutVisited b) := (Keeps.cutBay b p).trans (.completeIfEmpty .paced _)

theorem Part.cutVisited_pmon : ∃ changed, (p.cutVisited b).pmon = { p.pmon with changed := changed } := by
  unfold cutVisited completeIfEmpty
  split
  · obtain ⟨changed, pmon⟩ := (p.cutBay b).completeCutover_pmon .paced
    exact ⟨changed, by rw [pmon, cutBay_pmon]⟩
  · exact ⟨p.pmon.changed, by rw [cutBay_pmon]⟩

theorem Part.completeIfEmpty_node? {b : Nat} {r : BayRec} (cause : EndCause) {p : Part} (node : p.fm.node? b = some r) :
    ∃ q, (p.completeIfEmpty cause).fm.node? b = some { r with q := q } := by
  unfold completeIfEmpty
  split
  · exact completeCutover_node? cause p node
  · exact ⟨r.q, node⟩

variable {b p} {r : BayRec} (node : p.fm.node? b = some r)
include node

theorem Part.cutVisited_node?_moving {n : Nat} (next : r.nextTag = some n) :
    ∃ target q, (p.cutVisited b).fm.node? b = some { r.arrived n with target := target, q := q } := by
  obtain ⟨target, moved⟩ := cutBay_node? node next
  obtain ⟨q, node'⟩ := completeIfEmpty_node? .paced moved
  exact ⟨target, q, node'⟩

/-- What a visit never writes of a bay's record. -/
theorem Part.cutVisited_node? : ∃ tag nextTag moves target q,
    (p.cutVisited b).fm.node? b = some { r with tag := tag, nextTag := nextTag, moves := moves, target := target, q := q } := by
  cases next : r.nextTag with
  | none =>
    have still := cutBays_node?_still [b] node next
    obtain ⟨q, node'⟩ := completeIfEmpty_node? .paced still
    exact ⟨r.tag, r.nextTag, r.moves, r.target, q, node'⟩
  | some n =>
    obtain ⟨target, q, node'⟩ := cutVisited_node?_moving node next
    exact ⟨_, _, _, target, q, node'⟩

theorem Part.cutVisited_cut_of_more {n : Nat} (next : r.nextTag = some n) (more : removeSet b p.cut.list ≠ []) :
    (p.cutVisited b).cut = { p.cut with
      list := removeSet b p.cut.list, run := p.cut.run.map fun x => { x with moved := x.moved + 1 } } := by
  have cut := cutBay_cut node next
  rw [cutVisited, completeIfEmpty, if_neg (by rw [cut]; simpa using more), cut]

theorem Part.cutVisited_of_last {n : Nat} (next : r.nextTag = some n) (last : removeSet b p.cut.list = []) :
    (p.cutVisited b).cut = p.cut.over ∧ (p.cutVisited b).rsq.seq ≠ .cutting := by
  have cut := cutBay_cut node next
  have completes : p.cutVisited b = (p.cutBay b).completeCutover .paced := by
    rw [cutVisited, completeIfEmpty, if_pos (by rw [cut]; simpa using last)]
  rw [completes]
  refine ⟨?_, (p.cutBay b).completeCutover_seq .paced⟩
  rw [completeCutover_cut, cut, last, Cut.over]

end

/-! ### A failed transaction (R23, R25) -/

section
variable {p : Part} {b : Nat} {r : BayRec} (cause : FailureCause) (node : p.fm.node? b = some r)
include node

theorem Part.failed_of_silent (silent : r.health = .silent) :
    p.failed b cause = p.modifyNode b fun r => { r with lastFailure := some cause } := by
  rw [failed, node]
  dsimp only
  rw [silent]

theorem Part.failed_of_few (ok : r.health = .ok) (few : r.failures < 2) :
    p.failed b cause = p.modifyNode b fun r => { r with lastFailure := some cause, failures := r.failures + 1 } := by
  rw [failed, node]
  dsimp only
  rw [ok]
  dsimp only
  rw [if_pos (by omega)]

theorem Part.failed_of_third (ok : r.health = .ok) (third : 2 ≤ r.failures) :
    p.failed b cause = ((p.modifyNode b fun r => { r with lastFailure := some cause, failures := 3, health := .silent }).raise
      (.nodeSilent b cause)).becameSilent b := by
  rw [failed, node]
  dsimp only
  rw [ok]
  dsimp only
  rw [if_neg (by omega)]

end

theorem Part.silentVisit_eq (b : Nat) (p : Part) : p.silentVisit b =
    if p.rsq.seq = .cutting ∧ p.cut.mode = .vacant ∧ b ∈ p.cut.list then p.cutVisited b else p := rfl

/-- R44: the edges that a bay reports have no candidate once it is SILENT. -/
theorem Part.clearCandidates_edge? {b e : Nat} {p : Part} {y : Edge}
    (reports : eastEdge p.fm.cols b = some e ∨ southEdge p.fm.cols p.fm.rows b = some e)
    (held : (p.clearCandidates b).pmon.edge? e = some y) : y.candidate = none := by
  have cleared (m : Pmon) : ((m.modifyEdge e fun x => { x with candidate := none }).edge? e).any (fun x => x.candidate.isSome) = false := by
    rw [Pmon.edge?_modifyEdge, if_pos rfl]
    cases m.edge? e <;> rfl
  have again (e' : Nat) (m : Pmon) (done : (m.edge? e).any (fun x => x.candidate.isSome) = false) :
      ((m.modifyEdge e' fun x => { x with candidate := none }).edge? e).any (fun x => x.candidate.isSome) = false := by
    rw [Pmon.edge?_modifyEdge]
    split
    · cases m.edge? e <;> rfl
    · exact done
  have none : ((p.clearCandidates b).pmon.edge? e).any (fun x => x.candidate.isSome) = false := by
    unfold clearCandidates
    dsimp only
    rcases reports with east | south
    · rw [east]
      dsimp only
      split
      · exact again _ _ (cleared p.pmon)
      · exact cleared p.pmon
    · cases eastEdge p.fm.cols b with
      | none =>
        dsimp only
        rw [south]
        exact cleared p.pmon
      | some e' =>
        dsimp only [mapPmon_fm]
        rw [south]
        exact cleared _
  rw [held] at none
  simpa using none

/-- R172: the first of the reports of an event, where it can be reported. -/
theorem Slu.raiseAll_choose_first {u : Slu} {r : Report} (rs : List Report) (c : Clock) (on : Enabled u r.code)
    (room : u.queue.length < 16) (busy : u.tx ≠ .idle) :
    (u.raiseAll (r :: rs) c).choose.queue[u.queue.length]? = some ⟨r, c⟩ := by
  have busy' : (u.raiseAll (r :: rs) c).tx ≠ .idle := by rwa [raiseAll_eq]
  rw [choose_busy _ busy']
  exact raiseAll_first rs c on room

theorem Part.silentVisit_edge? (b : Nat) (p : Part) (e : Nat) : (p.silentVisit b).pmon.edge? e = p.pmon.edge? e := by
  rw [silentVisit_eq]
  split
  · obtain ⟨changed, pmon⟩ := cutVisited_pmon b p
    rw [pmon]
    rfl
  · rfl

/-- R23, R34: a POLL or a DRIVE whose reply fails. -/
theorem exec_failed {b want : Nat} {first : Option Byte} {x : Transaction} {chars : List RxChar} {cause : FailureCause} {s : State}
    (kind : PollOrDrive b x want first) (receiving : s.part.cbm.bus = .receiving x false chars)
    (failed : FailedReply b want first chars cause) :
    exec .receptionEnd s = .next { s with part :=
      ((s.part.mapCbm fun c => { c with bus := .quiet }).failed b cause).arbitrate.choose } := by
  have judged := judgeReply_of_failed failed
  rw [exec_receptionEnd_eq receiving]
  cases kind <;> rw [Part.applyOutcome, judged]

section
variable {b : Nat} {cause : FailureCause} {r : BayRec} {p : Part} (node : p.fm.node? b = some r) (ok : r.health = .ok)
  (third : 2 ≤ r.failures)
include node ok third

/-- R25: the part at a third failure, when the CUT is told: the bay SILENT and reported, its edges' candidates absent. -/
theorem Part.failed_silences : ∃ q : Part, p.failed b cause = q.silentVisit b
    ∧ q.fm.node? b = some { r with lastFailure := some cause, failures := 3, health := .silent }
    ∧ q.slu = p.slu.raise (.nodeSilent b cause) p.fm.clock ∧ q.cut = p.cut ∧ q.zt = p.zt ∧ q.rsq = p.rsq
    ∧ q.fm.clock = p.fm.clock
    ∧ ∀ e y, eastEdge p.fm.cols b = some e ∨ southEdge p.fm.cols p.fm.rows b = some e → q.pmon.edge? e = some y → y.candidate = none := by
  have silent : (p.modifyNode b fun r => { r with lastFailure := some cause, failures := 3, health := .silent }).fm.node? b
      = some { r with lastFailure := some cause, failures := 3, health := .silent } := by
    rw [modifyNode_fm, FloorModel.node?_modifyNode, if_pos rfl, node]
    rfl
  refine ⟨_, failed_of_third cause node ok third, ?_, ?_, ?_, ?_, ?_, ?_, ?_⟩
  · rw [clearCandidates_fm]
    exact silent
  · rw [clearCandidates_slu]
    rfl
  · rw [clearCandidates_cut]
    rfl
  · rw [clearCandidates_zt]
    rfl
  · rw [clearCandidates_rsq]
    rfl
  · rw [clearCandidates_fm]
    rfl
  · refine fun e y reports held => clearCandidates_edge? (p := (p.modifyNode b fun r =>
      { r with lastFailure := some cause, failures := 3, health := .silent }).raise (.nodeSilent b cause)) ?_ held
    exact reports

end

/-- Settles O35: the three cases of R23, and the visit of a VACANT-paced cutover's listed bay. -/
theorem failedTransactionCountsTowardSilent : Obligations.FailedTransactionCountsTowardSilent := by
  unfold Obligations.FailedTransactionCountsTowardSilent
  intro b want first x chars cause r s kind receiving failed node
  dsimp only
  have runs := exec_failed kind receiving failed
  generalize quiet : (s.part.mapCbm fun c => { c with bus := .quiet }) = p at runs
  have node' : p.fm.node? b = some r := by rw [← quiet]; exact node
  have pending : p.cbm.drivePending = s.part.cbm.drivePending := by rw [← quiet]; rfl
  have fm : p.fm = s.part.fm := by rw [← quiet]; rfl
  have cut : p.cut = s.part.cut := by rw [← quiet]; rfl
  have zt : p.zt = s.part.zt := by rw [← quiet]; rfl
  have afa : p.afa = s.part.afa := by rw [← quiet]; rfl
  have slu : p.slu = s.part.slu := by rw [← quiet]; rfl
  have rsq : p.rsq = s.part.rsq := by rw [← quiet]; rfl
  have shows (b' : Nat) : (p.failed b cause).arbitrate.choose.fm.node? b' = (p.failed b cause).fm.node? b' := Part.arbitrate_node? _ b'
  refine ⟨_, runs, rfl, fun b' owed => ?joins, fun silent => ?silent, fun ok few => ?few, fun early => ?early,
    fun ok third => ⟨?record, fun report => ?reported, fun unvisited => ?unvisited, fun visited n next => ?visited,
      fun e y reports held => ?candidates⟩⟩
  case joins =>
    rw [Part.choose_cbm, Part.arbitrate_drivePending]
    exact (Part.Keeps.failed b cause p).joins b' (by rw [pending]; exact owed)
  case silent =>
    rw [shows, Part.failed_of_silent cause node' silent, Part.modifyNode_fm, FloorModel.node?_modifyNode, if_pos rfl, node']
    rfl
  case few =>
    rw [shows, Part.failed_of_few cause node' ok few, Part.modifyNode_fm, FloorModel.node?_modifyNode, if_pos rfl, node']
    rfl
  case early =>
    have writes : ∃ g, p.failed b cause = p.modifyNode b g := by
      cases health : r.health with
      | silent => exact ⟨_, Part.failed_of_silent cause node' health⟩
      | ok => exact ⟨_, Part.failed_of_few cause node' health (early.resolve_left (by rw [health]; exact nofun))⟩
    obtain ⟨g, writes⟩ := writes
    rw [Part.choose_zt, Part.choose_cut, Part.choose_afa, Part.choose_cbm, Part.arbitrate_zt, Part.arbitrate_cut, Part.arbitrate_afa,
      Part.arbitrate_drivePending, ← zt, ← cut, ← afa, ← pending]
    refine ⟨?_, ?_, ?_, ?_, fun b' other => ?_⟩
    · rw [writes]; rfl
    · rw [writes]; rfl
    · rw [writes]; rfl
    · rw [writes]; rfl
    · rw [shows, writes, Part.modifyNode_fm, FloorModel.node?_modifyNode, if_neg other, fm]
  all_goals
    obtain ⟨q, effect, qNode, qSlu, qCut, qZt, qRsq, qClock, qCandidates⟩ := Part.failed_silences (cause := cause) node' ok third
    rw [effect] at shows
    have visit := q.silentVisit_eq b
    rw [qRsq, qCut, rsq, cut] at visit
  case record =>
    rw [effect, shows, visit]
    split
    · obtain ⟨tag, nextTag, moves, target, grant, visited⟩ := Part.cutVisited_node? qNode
      exact ⟨_, visited, rfl, rfl, rfl, rfl, rfl, rfl⟩
    · exact ⟨_, qNode, rfl, rfl, rfl, rfl, rfl, rfl⟩
  case reported =>
    obtain ⟨on, room, busy⟩ := report
    obtain ⟨rs, raised⟩ := (Part.Keeps.silentVisit b q).raised
    rw [effect, Part.choose_slu, Part.arbitrate_slu, raised, qSlu, qClock, slu, fm]
    exact Slu.raiseAll_choose_first rs _ on room busy
  case unvisited =>
    rw [if_neg unvisited] at visit
    rw [effect, visit]
    rw [visit] at shows
    refine ⟨?_, ?_, _, (shows b).trans qNode, rfl, rfl, rfl⟩
    · rw [Part.choose_cut, Part.arbitrate_cut, qCut, cut]
    · rw [Part.choose_zt, Part.arbitrate_zt, qZt, zt]
  case visited =>
    rw [if_pos visited] at visit
    rw [effect, visit]
    rw [visit] at shows
    obtain ⟨target, grant, moved⟩ := Part.cutVisited_node?_moving qNode next
    refine ⟨⟨_, (shows b).trans moved, rfl, rfl, rfl⟩, fun more => ?_, fun last => ?_⟩
    · rw [Part.choose_cut, Part.arbitrate_cut, Part.cutVisited_cut_of_more qNode next, qCut, cut]
      · rfl
      · rw [qCut, cut]
        exact more
    · obtain ⟨ended, seq⟩ := Part.cutVisited_of_last qNode next (by rw [qCut, cut]; exact last)
      rw [Part.choose_cut, Part.arbitrate_cut, ended, qCut, cut]
      exact ⟨rfl, Part.arbitrate_seq seq⟩
  case candidates =>
    rw [fm] at qCandidates
    rw [effect, Part.choose_pmon] at held
    rcases (q.silentVisit b).arbitrate_edge? e with same | ⟨-, settled⟩
    · rw [same, Part.silentVisit_edge?] at held
      exact qCandidates e y reports held
    · rw [settled, Part.silentVisit_edge?, Option.map_eq_some_iff] at held
      obtain ⟨y', held', rfl⟩ := held
      exact Edge.settleAtEnd_candidate (qCandidates e y' reports held')

end Sys2Proof.Machine

/-!
A valid poll reply (R24, R27, R30, R35, R42, R43, R48, R119): the contacts of a bay, what the lighting reads, the bay's record
through the event, and the obligation that these make up.
-/
namespace Sys2Proof.Machine

/-! ### Contacts (R3, R42, R43) -/

theorem Part.rewriteEdge_baseline (e : Nat) (g : Edge → Edge) (p : Part) : (p.rewriteEdge e g).pmon.baseline = p.pmon.baseline := by
  cases held : p.pmon.edge? e with
  | none => rw [rewriteEdge_of_none held]
  | some x =>
    rw [rewriteEdge_of_edge held]
    split
    · rfl
    · rw [effectiveChange_eq, mapPmon_pmon]
      dsimp only
      split
      · obtain ⟨set, noted⟩ := ((((p.mapPmon (·.modifyEdge e fun _ => x.rewritten g)).pmon).sawChange
          ((p.mapPmon (·.modifyEdge e fun _ => x.rewritten g)).rsq.seq == .solving))).noteChange_shape e (x.rewritten g).effective
        obtain ⟨monitor, quiet, stirred⟩ := Pmon.stir_shape (p.mapPmon (·.modifyEdge e fun _ => x.rewritten g)).fm.clock
          ((((p.mapPmon (·.modifyEdge e fun _ => x.rewritten g)).pmon).sawChange
            ((p.mapPmon (·.modifyEdge e fun _ => x.rewritten g)).rsq.seq == .solving)).noteChange e (x.rewritten g).effective)
        rw [stirred, noted]
        rfl
      · rfl

/-- R48: what a rewritten edge does to the net change set. -/
theorem Part.rewriteEdge_netChange {p : Part} {e : Nat} {x : Edge} {base : List EdgeState} (held : p.pmon.edge? e = some x)
    (running : p.fm.state = .running) (baseline : p.pmon.baseline = some base) (g : Edge → Edge) (i : Nat) :
    i ∈ (p.rewriteEdge e g).pmon.netChange ↔
      if i = e ∧ (x.rewritten g).effective ≠ x.effective then base.getD (e - 1) .unknown ≠ (x.rewritten g).effective
      else i ∈ p.pmon.netChange := by
  rw [rewriteEdge_of_edge held]
  by_cases same : (x.rewritten g).effective = x.effective
  · rw [if_pos same, if_neg fun both => both.2 same]
    rfl
  · generalize written : p.mapPmon (·.modifyEdge e fun _ => x.rewritten g) = q
    have running' : q.fm.state = .running := by rw [← written]; exact running
    have baseline' : (q.pmon.sawChange (q.rsq.seq == .solving)).baseline = some base := by rw [← written]; exact baseline
    obtain ⟨monitor, quiet, stirred⟩ :=
      ((q.pmon.sawChange (q.rsq.seq == .solving)).noteChange e (x.rewritten g).effective).stir_shape q.fm.clock
    have net : (q.effectiveChange e (x.rewritten g).effective).pmon.netChange
        = ((q.pmon.sawChange (q.rsq.seq == .solving)).noteChange e (x.rewritten g).effective).netChange := by
      rw [effectiveChange_of_running _ _ running', mapPmon_pmon, stirred]
    have before : (q.pmon.sawChange (q.rsq.seq == .solving)).netChange = p.pmon.netChange := by rw [← written]; rfl
    rw [if_neg same, net, Pmon.noteChange_netChange e _ baseline', before]
    simp [same]

/-- R43: an edge as a contact leaves it. -/
def Edge.contacted (sr : Nat) (present : Bool) (x : Edge) : Edge :=
  if x.kind = .sensed then x.rewritten (Edge.contact sr present) else x

theorem Part.contact_some (e : Nat) (present : Bool) (p : Part) : p.contact (some e) present =
    if (p.pmon.edge? e).any (fun x => x.kind == .sensed) then p.rewriteEdge e (Edge.contact p.fm.sr present) else p := by
  cases held : p.pmon.edge? e with
  | none => simp [contact, held]
  | some x => cases kind : x.kind <;> simp [contact, held, kind]

theorem Part.contact_edge? (e : Nat) (present : Bool) (p : Part) (i : Nat) : (p.contact (some e) present).pmon.edge? i =
    if i = e then (p.pmon.edge? e).map (Edge.contacted p.fm.sr present) else p.pmon.edge? i := by
  rw [contact_some]
  cases held : p.pmon.edge? e with
  | none =>
    split
    · next none => cases none
    · split
      · next same => rw [same, held]; rfl
      · rfl
  | some x =>
    by_cases sensed : x.kind = .sensed
    · simp only [Option.any_some, sensed, beq_self_eq_true, if_true, Option.map_some, Edge.contacted]
      rw [rewriteEdge_edge?, held]
      rfl
    · have other : (x.kind == .sensed) = false := beq_eq_false_iff_ne.2 sensed
      rw [if_neg (by simp [other]), Option.map_some, Edge.contacted, if_neg sensed]
      split
      · next same => rw [same]; exact held
      · rfl

theorem Part.contact_other (e : Option Nat) (present : Bool) (p : Part) {i : Nat} (other : e ≠ some i) :
    (p.contact e present).pmon.edge? i = p.pmon.edge? i := by
  cases e with
  | none => rfl
  | some e => rw [contact_edge?, if_neg fun same => other (congrArg some same.symm)]

theorem Part.contact_baseline (e : Option Nat) (present : Bool) (p : Part) : (p.contact e present).pmon.baseline = p.pmon.baseline := by
  cases e with
  | none => rfl
  | some e =>
    rw [contact_some]
    split
    · exact rewriteEdge_baseline ..
    · rfl

section
variable {p : Part} {base : List EdgeState} (running : p.fm.state = .running) (baseline : p.pmon.baseline = some base)
include running baseline

theorem Part.contact_netChange {e : Nat} {x : Edge} (held : p.pmon.edge? e = some x) (sensed : x.kind = .sensed) (present : Bool)
    (changes : (x.rewritten (Edge.contact p.fm.sr present)).effective ≠ x.effective) :
    e ∈ (p.contact (some e) present).pmon.netChange
      ↔ base.getD (e - 1) .unknown ≠ (x.rewritten (Edge.contact p.fm.sr present)).effective := by
  rw [contact_some, held, if_pos (by simp [sensed]), rewriteEdge_netChange held running baseline, if_pos ⟨rfl, changes⟩]

theorem Part.contact_netChange_other (e : Option Nat) (present : Bool) {i : Nat} (other : e ≠ some i) :
    i ∈ (p.contact e present).pmon.netChange ↔ i ∈ p.pmon.netChange := by
  cases e with
  | none => exact Iff.rfl
  | some e =>
    rw [contact_some]
    cases held : p.pmon.edge? e with
    | none => exact Iff.rfl
    | some x =>
      split
      · rw [rewriteEdge_netChange held running baseline, if_neg fun both => other (congrArg some both.1.symm)]
      · exact Iff.rfl

end

/-- R2, R3: a vertical edge is never a horizontal one. -/
theorem eastEdge_ne_southEdge {cols rows b e : Nat} (east : eastEdge cols b = some e) : southEdge cols rows b ≠ some e := by
  intro south
  unfold eastEdge at east
  unfold southEdge at south
  split at east
  · next inside =>
    split at south
    · next above =>
      have eq := (Option.some.inj south).trans (Option.some.inj east).symm
      have column : 1 ≤ colOf cols b := Nat.le_add_left ..
      have row : 1 ≤ rowOf cols b := Nat.le_add_left ..
      have whole : (rowOf cols b - 1) * (cols - 1) + (cols - 1) = rowOf cols b * (cols - 1) := by
        rw [← Nat.succ_mul, Nat.succ_eq_add_one, Nat.sub_add_cancel row]
      have fits : rowOf cols b * (cols - 1) ≤ rows * (cols - 1) := Nat.mul_le_mul_right _ (Nat.le_of_lt above)
      rw [vertEdges, Nat.mul_comm (cols - 1) rows] at eq
      omega
    · cases south
  · cases east

/-- R43: the edge records after the two contacts of a bay. -/
theorem Part.contacts_edge? {b e : Nat} {east south present : Bool} {p : Part}
    (reports : (eastEdge p.fm.cols b = some e ∧ present = east) ∨ (southEdge p.fm.cols p.fm.rows b = some e ∧ present = south)) :
    (p.contacts b east south).pmon.edge? e = (p.pmon.edge? e).map (Edge.contacted p.fm.sr present) := by
  unfold contacts
  rcases reports with ⟨edge, rfl⟩ | ⟨edge, rfl⟩
  · rw [contact_other _ _ _ (eastEdge_ne_southEdge edge), edge, contact_edge?, if_pos rfl]
  · rw [edge, contact_edge?, if_pos rfl, contact_fm, contact_other _ _ _ fun same => eastEdge_ne_southEdge same edge]

/-- R48: a contact that changes an edge's effective state moves it into the net change set or out of it. -/
theorem Part.contacts_netChange {b e : Nat} {east south present : Bool} {p : Part} {x : Edge} {base : List EdgeState}
    (reports : (eastEdge p.fm.cols b = some e ∧ present = east) ∨ (southEdge p.fm.cols p.fm.rows b = some e ∧ present = south))
    (running : p.fm.state = .running) (baseline : p.pmon.baseline = some base) (held : p.pmon.edge? e = some x)
    (sensed : x.kind = .sensed) (changes : (x.rewritten (Edge.contact p.fm.sr present)).effective ≠ x.effective) :
    e ∈ (p.contacts b east south).pmon.netChange
      ↔ base.getD (e - 1) .unknown ≠ (x.rewritten (Edge.contact p.fm.sr present)).effective := by
  have running' (present : Bool) (e : Option Nat) : (p.contact e present).fm.state = .running := by rw [contact_fm]; exact running
  have baseline' (present : Bool) (e : Option Nat) : (p.contact e present).pmon.baseline = some base :=
    (contact_baseline ..).trans baseline
  unfold contacts
  rcases reports with ⟨edge, rfl⟩ | ⟨edge, rfl⟩
  · rw [contact_netChange_other (running' _ _) (baseline' _ _) _ _ (eastEdge_ne_southEdge edge), edge,
      contact_netChange running baseline held sensed present changes]
  · have same : ((p.contact (eastEdge p.fm.cols b) east).pmon.edge? e) = some x := by
      rw [contact_other _ _ _ fun same => eastEdge_ne_southEdge same edge, held]
    have changes' : (x.rewritten (Edge.contact (p.contact (eastEdge p.fm.cols b) east).fm.sr present)).effective ≠ x.effective := by
      rw [contact_fm]
      exact changes
    rw [edge, contact_netChange (running' _ _) (baseline' _ _) same sensed present changes', contact_fm]

theorem Edge.contact_override (sr : Nat) (present : Bool) (x : Edge) : (x.contact sr present).override = x.override := by
  unfold contact
  dsimp only
  split_ifs <;> rfl

theorem Edge.contact_raw (sr : Nat) (present : Bool) (x : Edge) : (x.contact sr present).raw = if present then .present else .absent := by
  unfold contact
  dsimp only
  split_ifs <;> rfl

/-- R42: the effective state that a contact leaves. -/
theorem Edge.rewritten_contact (sr : Nat) (present : Bool) (x : Edge) : x.rewritten (Edge.contact sr present) =
    { x.contact sr present with effective := match x.override with
      | .forceWall => .walled
      | .forceOpen => .opened
      | .none => (x.contact sr present).settled } := by
  rw [← contact_override sr present x]
  rfl

/-! ### What the lighting reads (R130, R139, R140) -/

/-- The same zones, floor state, clock, tags and targets. -/
def Part.SameLight (p q : Part) : Prop :=
  q.zt = p.zt ∧ q.fm.state = p.fm.state ∧ q.fm.clock = p.fm.clock
    ∧ ∀ b, (q.fm.node? b).map (fun r => (r.tag, r.target)) = (p.fm.node? b).map fun r => (r.tag, r.target)

theorem Part.SameLight.tag {p q : Part} (h : p.SameLight q) (b : Nat) : (q.fm.node? b).map BayRec.tag = (p.fm.node? b).map BayRec.tag := by
  have both := congrArg (Option.map Prod.fst) (h.2.2.2 b)
  rw [Option.map_map, Option.map_map] at both
  exact both

theorem Part.SameLight.target {p q : Part} (h : p.SameLight q) (b : Nat) :
    (q.fm.node? b).map BayRec.target = (p.fm.node? b).map BayRec.target := by
  have both := congrArg (Option.map Prod.snd) (h.2.2.2 b)
  rw [Option.map_map, Option.map_map] at both
  exact both

theorem Part.SameLight.rewriteZone {p q : Part} (h : p.SameLight q) (tag : Nat) (g : Zone → Zone) :
    (p.rewriteZone tag g).SameLight (q.rewriteZone tag g) := by
  obtain ⟨zt, state, clock, nodes⟩ := h
  unfold Part.rewriteZone retargetZone
  dsimp only [mapZt_fm, mapZt_zt]
  rw [zt, state]
  split
  · refine ⟨by simp [zt], by simp [state], by simp [clock], fun b => ?_⟩
    rw [mapFm_fm, mapFm_fm, FloorModel.node?_mapNodes, FloorModel.node?_mapNodes]
    have at' := nodes b
    cases qNode : q.fm.node? b <;> cases pNode : p.fm.node? b <;> rw [qNode, pNode] at at'
    · simp [qNode, pNode]
    · cases at'
    · cases at'
    · next r r' =>
      simp only [mapZt_fm, qNode, pNode, Option.map_some, Option.some.injEq, Prod.mk.injEq] at at' ⊢
      obtain ⟨tags, targets⟩ := at'
      rw [tags]
      split
      · exact ⟨rfl, rfl⟩
      · exact ⟨tags, targets⟩
  · exact ⟨by simp [zt], state, clock, nodes⟩

theorem Part.SameLight.occupiedFlag {p q : Part} (h : p.SameLight q) (tag : Nat) (occupied : Bool) :
    (p.occupiedFlag tag occupied).SameLight (q.occupiedFlag tag occupied) := by
  cases occupied with
  | false => exact h
  | true =>
    cases zone : p.zt.zone? tag with
    | none => simpa only [Part.occupiedFlag, h.1, zone] using h
    | some z =>
      have zone' : q.zt.zone? tag = some z := by rw [h.1, zone]
      cases occupancy : z.occupancy with
      | vacant =>
        rw [occupiedFlag_vacant zone occupancy, occupiedFlag_vacant zone' occupancy, h.2.2.1]
        exact h.rewriteZone tag _
      | occupied =>
        rw [occupiedFlag_occupied zone occupancy, occupiedFlag_occupied zone' occupancy, h.2.2.1]
        exact ⟨congrArg (Zt.modifyZone tag _) h.1, h.2⟩

theorem Part.SameLight.keypadEvent {p q : Part} (h : p.SameLight q) (b : Nat) (k : Key) :
    (p.keypadEvent b k).SameLight (q.keypadEvent b k) := by
  have routed : q.keypadZone b = p.keypadZone b := by rw [keypadZone, keypadZone, h.1, h.tag]
  unfold Part.keypadEvent
  rw [routed]
  split
  · exact h.rewriteZone _ _
  · exact h

theorem Part.SameLight.trans {p q r : Part} (pq : p.SameLight q) (qr : q.SameLight r) : p.SameLight r :=
  ⟨qr.1.trans pq.1, qr.2.1.trans pq.2.1, qr.2.2.1.trans pq.2.2.1, fun b => (qr.2.2.2 b).trans (pq.2.2.2 b)⟩

/-- R27: the keypad event, where there is one. -/
def Part.keypress (b : Nat) (key : Option Key) (p : Part) : Part :=
  match key with
  | none => p
  | some k => p.keypadEvent b k

theorem Part.SameLight.keypress {p q : Part} (h : p.SameLight q) (b : Nat) (key : Option Key) :
    (p.keypress b key).SameLight (q.keypress b key) := by
  cases key with
  | none => exact h
  | some k => exact h.keypadEvent b k

/-- The bays' records but for the targets. -/
def Part.OnlyTargets (p q : Part) : Prop := ∀ b r, p.fm.node? b = some r → ∃ target, q.fm.node? b = some { r with target := target }

theorem Part.OnlyTargets.trans {p q r : Part} (pq : p.OnlyTargets q) (qr : q.OnlyTargets r) : p.OnlyTargets r := by
  intro b x node
  obtain ⟨target, node'⟩ := pq b x node
  obtain ⟨target', node''⟩ := qr b _ node'
  exact ⟨target', node''⟩

theorem Part.OnlyTargets.of_fm {p q : Part} (same : q.fm = p.fm) : p.OnlyTargets q :=
  fun b r node => ⟨r.target, by rw [same]; exact node⟩

theorem Part.OnlyTargets.retargetZone (tag : Nat) (p : Part) : p.OnlyTargets (p.retargetZone tag) := by
  intro b r node
  unfold Part.retargetZone
  split
  · rw [mapFm_fm, FloorModel.node?_mapNodes, node, Option.map_some]
    split
    · exact ⟨_, rfl⟩
    · exact ⟨r.target, rfl⟩
  · exact ⟨r.target, node⟩

theorem Part.OnlyTargets.occupiedFlag (tag : Nat) (occupied : Bool) (p : Part) : p.OnlyTargets (p.occupiedFlag tag occupied) := by
  unfold Part.occupiedFlag
  split
  · dsimp only
    split
    · exact fun b r node => retargetZone tag _ b r node
    · exact of_fm rfl
  · exact of_fm rfl
  · exact of_fm rfl

theorem Part.OnlyTargets.keypadEvent (b : Nat) (k : Key) (p : Part) : p.OnlyTargets (p.keypadEvent b k) := by
  unfold Part.keypadEvent
  split
  · exact fun b r node => retargetZone _ _ b r node
  · exact of_fm rfl

theorem Part.tellLighting_of_running {p : Part} {b : Nat} {r : BayRec} (occupied : Bool) (key : Option Key)
    (running : p.fm.state = .running) (node : p.fm.node? b = some r) :
    p.tellLighting b occupied key = (p.occupiedFlag r.tag occupied).keypress b key := by
  rw [tellLighting, running, node]
  cases key <;> rfl

theorem Part.tellLighting_of_not_running {p : Part} (b : Nat) (occupied : Bool) (key : Option Key) (floor : p.fm.state ≠ .running) :
    p.tellLighting b occupied key = p := by
  unfold tellLighting
  split
  · next running => exact absurd running floor
  · rfl
  · rfl

theorem Part.tellLighting_blocks {p : Part} {b : Nat} {r : BayRec} (occupied : Bool) (key : Option Key) (node : p.fm.node? b = some r) :
    p.OnlyTargets (p.tellLighting b occupied key) ∧ (p.tellLighting b occupied key).pmon = p.pmon
      ∧ (p.tellLighting b occupied key).rsq = p.rsq ∧ (p.tellLighting b occupied key).cut = p.cut := by
  by_cases running : p.fm.state = .running
  · rw [tellLighting_of_running occupied key running node]
    cases key with
    | none => exact ⟨OnlyTargets.occupiedFlag r.tag occupied p, by simp [keypress], by simp [keypress], by simp [keypress]⟩
    | some k => exact ⟨(OnlyTargets.occupiedFlag r.tag occupied p).trans (OnlyTargets.keypadEvent b k _), by simp [keypress], by simp [keypress], by simp [keypress]⟩
  · rw [tellLighting_of_not_running b occupied key running]
    exact ⟨.of_fm rfl, rfl, rfl, rfl⟩

/-! ### The bay's record (R24, R27, R30, R35) -/

/-- A valid poll reply's part before the contacts: the bay back in service, its record stored, its echo compared. -/
def Part.polled (b : Nat) (reply : PollReply) (p : Part) : Part :=
  ((p.comeBack b).modifyNode b fun r =>
    { r with failures := 0, inputs := some reply.inputs, keyCounter := some reply.keyCounter }).checkEcho b reply.echo

/-- R30: the keypad event that a reply gives a bay with this record. -/
def BayRec.keyed (reply : PollReply) (r : BayRec) : Option Key :=
  if r.health = .ok then keypadOf r.keyCounter reply.keyCounter reply.keyCode else none

/-- R27: the record that a reply leaves. -/
def BayRec.polled (reply : PollReply) (r : BayRec) : BayRec :=
  { r with health := .ok, failures := 0, inputs := some reply.inputs, keyCounter := some reply.keyCounter }

theorem Part.Keeps.polled (b : Nat) (reply : PollReply) (p : Part) : p.Keeps (p.polled b reply) :=
  (comeBack b p).trans ((modifyNode b _ _).trans (checkEcho b _ _))

section
variable {b : Nat} {reply : PollReply} {p : Part} {r : BayRec} (node : p.fm.node? b = some r)
include node

theorem Part.comeBack_of_ok (ok : r.health = .ok) : p.comeBack b = p := by
  rw [comeBack, node]
  dsimp only
  rw [ok]

theorem Part.comeBack_of_silent (silent : r.health = .silent) : p.comeBack b =
    ((p.modifyNode b fun r => { r with health := .ok, failures := 0, keyCounter := none }).raise (.nodeBack b)).joinPending b := by
  rw [comeBack, node]
  dsimp only
  rw [silent]

theorem Part.validPoll_eq : p.validPoll b reply =
    (((p.polled b reply).contacts b reply.east reply.south).tellLighting b reply.inputs.occupied (r.keyed reply)).vacantVisit b
      reply.inputs.occupied := by
  have key : keypadOf (((p.comeBack b).fm.node? b).bind BayRec.keyCounter) reply.keyCounter reply.keyCode = r.keyed reply := by
    unfold BayRec.keyed
    cases health : r.health with
    | ok => rw [comeBack_of_ok node health, node]; rfl
    | silent =>
      rw [comeBack_of_silent node health, joinPending_fm, raise_fm, modifyNode_fm, FloorModel.node?_modifyNode, if_pos rfl, node]
      rfl
  rw [validPoll, key]
  rfl

theorem Part.polled_node? : (p.polled b reply).fm.node? b = some (r.polled reply) := by
  rw [polled, checkEcho_fm, modifyNode_fm, FloorModel.node?_modifyNode, if_pos rfl]
  cases health : r.health with
  | ok =>
    rw [comeBack_of_ok node health, node, Option.map_some, BayRec.polled, ← health]
  | silent =>
    rw [comeBack_of_silent node health, joinPending_fm, raise_fm, modifyNode_fm, FloorModel.node?_modifyNode, if_pos rfl, node]
    rfl

theorem Part.polled_node?_other {c : Nat} (other : c ≠ b) : (p.polled b reply).fm.node? c = p.fm.node? c := by
  rw [polled, checkEcho_fm, modifyNode_fm, FloorModel.node?_modifyNode, if_neg other]
  cases health : r.health with
  | ok => rw [comeBack_of_ok node health]
  | silent => rw [comeBack_of_silent node health, joinPending_fm, raise_fm, modifyNode_fm, FloorModel.node?_modifyNode, if_neg other]

theorem Part.polled_sameLight : p.SameLight (p.polled b reply) := by
  have kept := Keeps.polled b reply p
  refine ⟨by simp [polled], kept.state, kept.clock, fun c => ?_⟩
  by_cases same : c = b
  · subst same
    rw [polled_node? node, node]
    rfl
  · rw [polled_node?_other node same]

/-- R24: a bay that was SILENT owes a drive, and its return is the first report. -/
theorem Part.polled_of_silent (silent : r.health = .silent) :
    b ∈ (p.polled b reply).cbm.drivePending ∧ ∃ rs, (p.polled b reply).slu = p.slu.raiseAll (.nodeBack b :: rs) p.fm.clock := by
  have back := comeBack_of_silent node silent
  have rest : (p.comeBack b).Keeps (p.polled b reply) := (Keeps.modifyNode b _ _).trans (.checkEcho b _ _)
  obtain ⟨rs, raised⟩ := rest.raised
  refine ⟨rest.joins b ?_, rs, ?_⟩
  · rw [back, joinPending_drivePending]
    exact (mem_insertSet ..).2 (.inl rfl)
  · rw [raised, back]
    rfl

/-- R35: a bay whose echo is not the pair it was last sent owes a drive, and its restart is the first report. -/
theorem Part.polled_of_restarted {sent : Pair} (ok : r.health = .ok) (settled : b ∉ p.cbm.drivePending)
    (last : r.lastSent = some sent) (differs : sent ≠ reply.echo) :
    b ∈ (p.polled b reply).cbm.drivePending ∧ (p.polled b reply).slu = p.slu.raise (.nodeRestarted b) p.fm.clock := by
  generalize stored : (p.modifyNode b fun r =>
    { r with failures := 0, inputs := some reply.inputs, keyCounter := some reply.keyCounter }) = q
  have lastSent : (q.fm.node? b).bind BayRec.lastSent = some sent := by
    rw [← stored, modifyNode_fm, FloorModel.node?_modifyNode, if_pos rfl, node]
    exact last
  have settled' : b ∉ q.cbm.drivePending := by rw [← stored]; exact settled
  have eq : p.polled b reply = (q.raise (.nodeRestarted b)).joinPending b := by
    rw [polled, comeBack_of_ok node ok, stored, checkEcho, lastSent]
    exact if_pos ⟨settled', differs⟩
  rw [eq, joinPending_drivePending, ← stored]
  exact ⟨(mem_insertSet ..).2 (.inl rfl), rfl⟩

end

/-- R30: the keypad event, as the statements give it. -/
theorem BayRec.keyed_eq (reply : PollReply) (r : BayRec) : r.keyed reply =
    if r.health = .ok ∧ r.keyCounter ≠ none ∧ r.keyCounter ≠ some reply.keyCounter then
      (if reply.keyCode = 1 then some .toggle else if reply.keyCode = 2 then some .raise
        else if reply.keyCode = 3 then some .lower else none)
    else none := by
  have code : Key.ofCode reply.keyCode = if reply.keyCode = 1 then some .toggle else if reply.keyCode = 2 then some .raise
      else if reply.keyCode = 3 then some .lower else none := by
    match reply.keyCode with
    | 0 | 1 | 2 | 3 => rfl
    | n + 4 =>
      rw [if_neg (by omega), if_neg (by omega), if_neg (by omega)]
      rfl
  rw [← code]
  unfold keyed keypadOf
  cases r.health with
  | silent => simp
  | ok =>
    cases r.keyCounter with
    | none => simp
    | some k =>
      by_cases same : k = reply.keyCounter <;> simp [same]

theorem Part.vacantVisit_eq (b : Nat) (occupied : Bool) (p : Part) : p.vacantVisit b occupied =
    if p.rsq.seq = .cutting ∧ p.cut.mode = .vacant ∧ b ∈ p.cut.list ∧ occupied = false then p.cutVisited b else p := rfl

section
variable {b : Nat} {reply : PollReply} {p : Part} {r : BayRec} (node : p.fm.node? b = some r)
include node

/-- R27, R43, R119: the part at a valid reply's last step, the VACANT visit. -/
theorem Part.validPoll_visits : ∃ l : Part, p.validPoll b reply = l.vacantVisit b reply.inputs.occupied
    ∧ (∃ target, l.fm.node? b = some { r.polled reply with target := target })
    ∧ (p.polled b reply).Keeps l ∧ l.rsq = p.rsq ∧ l.cut = p.cut
    ∧ l.pmon = ((p.polled b reply).contacts b reply.east reply.south).pmon
    ∧ (p.fm.state = .running → ((p.occupiedFlag r.tag reply.inputs.occupied).keypress b (r.keyed reply)).SameLight l)
    ∧ (p.fm.state ≠ .running → p.SameLight l) := by
  have light : p.SameLight ((p.polled b reply).contacts b reply.east reply.south) := by
    obtain ⟨zt, state, clock, nodes⟩ := polled_sameLight (reply := reply) node
    exact ⟨by rw [contacts_zt, zt], by rw [contacts_fm, state], by rw [contacts_fm, clock], by rw [contacts_fm]; exact nodes⟩
  have node' : ((p.polled b reply).contacts b reply.east reply.south).fm.node? b = some (r.polled reply) := by
    rw [contacts_fm]
    exact polled_node? node
  obtain ⟨targets, pmon, rsq, cut⟩ := tellLighting_blocks reply.inputs.occupied (r.keyed reply) node'
  have rsq' : (p.polled b reply).rsq = p.rsq := by simp [polled]
  have cut' : (p.polled b reply).cut = p.cut := by simp [polled]
  refine ⟨_, validPoll_eq node, targets b _ node', (Keeps.contacts b _ _ _).trans (.tellLighting b _ _ _), ?_, ?_, pmon,
    fun running => ?_, fun floor => ?_⟩
  · rw [rsq, contacts_rsq, rsq']
  · rw [cut, contacts_cut, cut']
  · rw [tellLighting_of_running _ _ (light.2.1.trans running) node']
    exact (light.occupiedFlag r.tag reply.inputs.occupied).keypress b (r.keyed reply)
  · rw [tellLighting_of_not_running _ _ _ fun running => floor (light.2.1.symm.trans running)]
    exact light

end

theorem Part.Keeps.surveyEndsNext {p q : Part} (h : p.Keeps q) : SurveyEndsNext q ↔ SurveyEndsNext p := by
  unfold SurveyEndsNext
  rw [h.fm]
  exact Iff.rfl

theorem Part.vacantVisit_pmon (b : Nat) (occupied : Bool) (p : Part) :
    ∃ changed, (p.vacantVisit b occupied).pmon = { p.pmon with changed := changed } := by
  rw [vacantVisit_eq]
  split
  · exact cutVisited_pmon b p
  · exact ⟨p.pmon.changed, rfl⟩

/-- Settles O36: the bay's record and echo, the contacts, the lighting and the visit, in their order. -/
theorem validPollStoresReply : Obligations.ValidPollStoresReply := by
  unfold Obligations.ValidPollStoresReply
  intro b chars r s receiving valid node
  have judged : judgeReply b 6 none chars = none := (judgeReply_eq_none_iff ..).2 valid
  have runs := exec_receptionEnd_eq receiving
  rw [Part.applyOutcome, judged] at runs
  dsimp only at runs ⊢
  generalize quiet : (s.part.mapCbm fun c => { c with bus := .quiet }) = p at runs
  generalize read : PollReply.ofChars chars = reply at runs
  have node' : p.fm.node? b = some r := by rw [← quiet]; exact node
  have fm : p.fm = s.part.fm := by rw [← quiet]; rfl
  have slu : p.slu = s.part.slu := by rw [← quiet]; rfl
  have pmon : p.pmon = s.part.pmon := by rw [← quiet]; rfl
  obtain ⟨l, effect, ⟨target, lNode⟩, lKept, lRsq, lCut, lPmon, lit, unlit⟩ := Part.validPoll_visits (reply := reply) node'
  have visit := l.vacantVisit_eq b reply.inputs.occupied
  have wasSeq : p.rsq.seq = s.part.rsq.seq := by rw [← quiet]; rfl
  have wasCut : p.cut = s.part.cut := by rw [← quiet]; rfl
  rw [lRsq, lCut, wasSeq, wasCut] at visit
  have kept : (p.polled b reply).Keeps (p.validPoll b reply) := by rw [effect]; exact lKept.trans (.vacantVisit b _ l)
  have whole : p.Keeps (p.validPoll b reply) := .validPoll b reply p
  have record : ∃ r', (p.validPoll b reply).fm.node? b = some r' ∧ r'.health = .ok ∧ r'.failures = 0
      ∧ r'.inputs = some reply.inputs ∧ r'.keyCounter = some reply.keyCounter ∧ r'.lastSent = r.lastSent
      ∧ r'.lastFailure = r.lastFailure ∧ r'.level = r.level := by
    rw [effect, visit]
    split
    · obtain ⟨tag, nextTag, moves, target', grant, visited⟩ := Part.cutVisited_node? lNode
      exact ⟨_, visited, rfl, rfl, rfl, rfl, rfl, rfl, rfl⟩
    · exact ⟨_, lNode, rfl, rfl, rfl, rfl, rfl, rfl, rfl⟩
  have shows (b' : Nat) : (p.validPoll b reply).arbitrate.choose.fm.node? b' = (p.validPoll b reply).fm.node? b' :=
    Part.arbitrate_node? _ b'
  have reports {x : Report} {rs : List Report} (first : (p.polled b reply).slu = p.slu.raiseAll (x :: rs) p.fm.clock)
      (able : Reportable s.part.slu x.code) :
      (p.validPoll b reply).arbitrate.choose.slu.queue[s.part.slu.queue.length]? = some ⟨x, s.part.fm.clock⟩ := by
    obtain ⟨on, room, busy⟩ := able
    obtain ⟨more, raised⟩ := kept.raised
    rw [Part.choose_slu, Part.arbitrate_slu, raised, first, (Part.Keeps.polled b reply p).clock, ← Slu.raiseAll_append, slu, fm]
    exact Slu.raiseAll_choose_first _ _ on room busy
  have edges (e : Nat) : (p.validPoll b reply).pmon.edge? e = ((p.polled b reply).contacts b reply.east reply.south).pmon.edge? e := by
    obtain ⟨changed, same⟩ := l.vacantVisit_pmon b reply.inputs.occupied
    rw [effect, same, ← lPmon]
    rfl
  have polledFm : (p.polled b reply).fm = { p.fm with bays := (p.polled b reply).fm.bays } := (Part.Keeps.polled b reply p).fm
  have polledPmon : (p.polled b reply).pmon = p.pmon := by simp [Part.polled]
  obtain ⟨r', rNode, health, failures, inputs, keyCounter, lastSent, lastFailure, level⟩ := record
  refine ⟨_, r', runs, rfl, (shows b).trans rNode, health, failures, ?inputs, ?counter, lastSent, lastFailure, level,
    fun b' owed => ?joins, fun silent => ?silent, fun sent ok settled last differs => ?restarted,
    fun e present y reported held sensed => ?edge, fun unvisited => ?unvisited, fun visited n next => ?visited⟩
  case inputs =>
    rw [inputs, ← read]
    rfl
  case counter =>
    rw [keyCounter, ← read]
    rfl
  case joins =>
    rw [Part.choose_cbm, Part.arbitrate_drivePending]
    exact whole.joins b' (by rw [← quiet]; exact owed)
  case silent =>
    obtain ⟨owes, rs, first⟩ := Part.polled_of_silent (reply := reply) node' silent
    rw [Part.choose_cbm, Part.arbitrate_drivePending]
    exact ⟨kept.joins b owes, fun able => reports first able⟩
  case restarted =>
    obtain ⟨owes, first⟩ := Part.polled_of_restarted (reply := reply) node' ok (by rw [← quiet]; exact settled) last
      (by rw [← read]; exact differs)
    rw [Part.choose_cbm, Part.arbitrate_drivePending]
    exact ⟨kept.joins b owes, fun able => reports (rs := []) first able⟩
  case edge =>
    have cols : (p.polled b reply).fm.cols = s.part.fm.cols := by rw [polledFm, fm]; rfl
    have rows : (p.polled b reply).fm.rows = s.part.fm.rows := by rw [polledFm, fm]; rfl
    have sr : (p.polled b reply).fm.sr = s.part.fm.sr := by rw [polledFm, fm]; rfl
    have state : (p.polled b reply).fm.state = s.part.fm.state := by rw [polledFm, fm]
    have reported' : (eastEdge (p.polled b reply).fm.cols b = some e ∧ present = reply.east)
        ∨ (southEdge (p.polled b reply).fm.cols (p.polled b reply).fm.rows b = some e ∧ present = reply.south) := by
      rw [cols, rows, ← read]
      exact reported
    have held' : (p.polled b reply).pmon.edge? e = some y := by rw [polledPmon, pmon]; exact held
    have written := y.rewritten_contact s.part.fm.sr present
    have after : (p.validPoll b reply).pmon.edge? e = some (y.rewritten (Edge.contact s.part.fm.sr present)) := by
      rw [edges, Part.contacts_edge? reported', held', sr, Option.map_some, Edge.contacted, if_pos sensed]
    have survives := (p.validPoll b reply).arbitrate_edge? e
    rw [after] at survives
    rw [Part.choose_pmon]
    refine ⟨?raw, fun going => ?taken, fun base running baseline changes => ?net⟩
    case raw =>
      rcases survives with same | ⟨-, settled⟩
      · exact ⟨_, same, Edge.contact_raw ..⟩
      · exact ⟨_, settled, (Edge.settleAtEnd_raw _).trans (Edge.contact_raw ..)⟩
    case taken =>
      rcases survives with same | ⟨ends, -⟩
      · rw [same, written]
        rfl
      · refine absurd (whole.surveyEndsNext.1 ends) ?_
        rw [← quiet]
        exact going
    case net =>
      have changes' : (y.rewritten (Edge.contact (p.polled b reply).fm.sr present)).effective ≠ y.effective := by
        rw [sr, written]
        exact changes
      have net := Part.contacts_netChange reported' (state.trans running) (by rw [polledPmon, pmon]; exact baseline) held' sensed changes'
      rw [← lPmon, sr, written] at net
      have stays : (p.validPoll b reply).arbitrate.pmon.netChange = l.pmon.netChange := by
        obtain ⟨changed, same⟩ := l.vacantVisit_pmon b reply.inputs.occupied
        obtain ⟨rounds, cbm, eq⟩ | ⟨ends, -⟩ := (p.validPoll b reply).arbitrate_cases
        · rw [eq, effect]
          show (l.vacantVisit b reply.inputs.occupied).pmon.netChange = l.pmon.netChange
          rw [same]
        · have survey := (whole.surveyEndsNext.1 ends).1
          rw [fm, running] at survey
          cases survey
      rw [stays]
      exact net
  case unvisited =>
    have unvisited' : ¬ (s.part.rsq.seq = .cutting ∧ s.part.cut.mode = .vacant ∧ b ∈ s.part.cut.list ∧ reply.inputs.occupied = false) := by
      rw [← read]
      exact unvisited
    rw [if_neg unvisited'] at visit
    rw [effect, visit, lNode] at rNode
    cases rNode
    rw [Part.choose_cut, Part.choose_zt, Part.arbitrate_cut, Part.arbitrate_zt, effect, visit, lCut, wasCut]
    rw [effect, visit] at shows
    have before : s.part.SameLight p := by rw [← quiet]; exact ⟨rfl, rfl, rfl, fun _ => rfl⟩
    refine ⟨rfl, rfl, rfl, rfl, fun running => ?_, fun floor => ?_⟩
    · have lighted := lit (by rw [fm]; exact running)
      have own := ((before.occupiedFlag r.tag reply.inputs.occupied).keypress b (r.keyed reply)).trans lighted
      rw [r.keyed_eq reply, ← read] at own
      refine ⟨own.1, fun b' => ?_⟩
      rw [shows]
      exact own.target b'
    · have same := unlit (by rw [fm]; exact floor)
      refine ⟨same.1.trans before.1, fun b' => ?_⟩
      rw [shows, same.target, before.target]
  case visited =>
    have visited' : s.part.rsq.seq = .cutting ∧ s.part.cut.mode = .vacant ∧ b ∈ s.part.cut.list ∧ reply.inputs.occupied = false := by
      rw [← read]
      exact visited
    rw [if_pos visited'] at visit
    obtain ⟨target', grant, moved⟩ := Part.cutVisited_node?_moving lNode next
    rw [effect, visit, moved] at rNode
    cases rNode
    rw [Part.choose_cut, Part.arbitrate_cut, effect, visit]
    refine ⟨rfl, rfl, rfl, fun more => ?_, fun last => ?_⟩
    · rw [Part.cutVisited_cut_of_more lNode next, lCut, wasCut]
      · rfl
      · rw [lCut, wasCut]
        exact more
    · obtain ⟨ended, seq⟩ := Part.cutVisited_of_last lNode next (by rw [lCut, wasCut]; exact last)
      rw [ended, lCut, wasCut]
      exact ⟨rfl, Part.arbitrate_seq seq⟩

end Sys2Proof.Machine

/-!
An accepted SETUP FLOOR (R8 to R10, R15, R179): the values that pass the checks, the bays and edges of a new floor, what a free bus
then grants, and the obligation that these make up.
-/
namespace Sys2Proof.Machine

/-! ### The checks (R8) -/

/-- R8: the grid's values and the bitmap are in range. -/
def SetupFits (g : Grid) (bitmap : List Byte) : Prop :=
  (2 ≤ g.cols ∧ g.cols ≤ 16) ∧ (2 ≤ g.rows ∧ g.rows ≤ 12) ∧ BitmapFits (g.cols * g.rows) bitmap
    ∧ (5 ≤ g.v ∧ g.v ≤ 40) ∧ (g.v + 10 ≤ g.qmax ∧ g.qmax ≤ 250) ∧ (1 ≤ g.sr ∧ g.sr ≤ 8)

theorem setupFieldFault_eq_none_iff (g : Grid) (bitmap : List Byte) : setupFieldFault g bitmap = none ↔ SetupFits g bitmap := by
  have outside (lo hi x : Nat) : (x < lo ∨ hi < x) ↔ ¬ (lo ≤ x ∧ x ≤ hi) := by omega
  have passes {c : Prop} [Decidable c] (o : Option Nat) (n : Nat) : (if c then o else some n) = none ↔ c ∧ o = none := by
    by_cases h : c <;> simp [h]
  have tests := bitmap_tests_iff (g.cols * g.rows) bitmap
  unfold setupFieldFault SetupFits
  simp only [← ite_or, outside, ite_not]
  rw [passes, passes]
  refine and_congr_right fun _ => and_congr_right fun _ => ?_
  by_cases fits : BitmapFits (g.cols * g.rows) bitmap
  · rw [if_neg (tests.not_left.2 fits), passes, passes, passes]
    simp only [fits, true_and, and_true]
  · rw [if_pos (tests.2 fits)]
    simp only [fits, false_and, reduceCtorEq]

theorem handleSetupFloor_done {body : List Byte} (p : Part) (len : body.length = 29)
    (considered : p.fm.state = .unconfigured ∨ p.rsq.seq = .idle) (fits : SetupFits (setupGrid body) (setupBitmap body)) :
    handleSetupFloor body p = ((p.setupFloor (setupGrid body) (setupBitmap body)).kickBus,
      .done (byteOf (p.setupFloor (setupGrid body) (setupBitmap body)).fm.nr
        :: bytes16 (edgeCount (setupGrid body).cols (setupGrid body).rows)
        ++ [byteOf (setupGrid body).v, byteOf (setupGrid body).qmax, byteOf (setupGrid body).sr])) := by
  have none := (setupFieldFault_eq_none_iff _ _).2 fits
  simp only [handleSetupFloor, lengthIs_of_eq len, p.setupBusy_eq, if_pos considered, none, Option.map_none, checked_none]

/-! ### The bays and edges of a new floor (R1, R3, R15, R41) -/

section
variable (g : Grid) (bitmap : List Byte) (f : FloorModel)

theorem FloorModel.setup_bay? {b : Nat} (low : 1 ≤ b) (high : b ≤ g.cols * g.rows) :
    (f.setup g bitmap).bay? b = some (if coreBit bitmap b then .core else .roomable (.setup g.v)) := by
  have bays : (f.setup g bitmap).bays = setupBays g bitmap := rfl
  rw [bay?, if_neg (by omega), bays, setupBays, List.getElem?_map, bayNumbers, List.getElem?_range' (by omega), Option.map_some]
  simp only [Nat.one_mul, Nat.add_sub_cancel' low]

theorem FloorModel.setup_node? (b : Nat) : (f.setup g bitmap).node? b =
    if 1 ≤ b ∧ b ≤ g.cols * g.rows ∧ coreBit bitmap b = false then some (.setup g.v) else none := by
  by_cases inside : 1 ≤ b ∧ b ≤ g.cols * g.rows
  · rw [node?, setup_bay? g bitmap f inside.1 inside.2]
    by_cases room : coreBit bitmap b = false
    · rw [if_neg (by simp [room]), if_pos ⟨inside.1, inside.2, room⟩]
    · rw [if_pos (by simpa using room), if_neg fun all => room all.2.2]
  · have gone : (f.setup g bitmap).bay? b = none := by
      rw [bay?]
      by_cases zero : b = 0
      · rw [if_pos zero]
      · rw [if_neg zero, List.getElem?_eq_none]
        show (setupBays g bitmap).length ≤ b - 1
        rw [setupBays, List.length_map, bayNumbers, List.length_range']
        omega
    rw [node?, gone, if_neg fun all => inside ⟨all.1, all.2.1⟩]

/-- The ROOMABLE bays of a new floor are those that the bitmap leaves, ascending. -/
theorem FloorModel.setup_roomable :
    (f.setup g bitmap).roomable = (List.range' 1 (g.cols * g.rows)).filter fun b => !coreBit bitmap b := by
  refine ascending_ext (nodes_sorted _) (List.Pairwise.filter _ (List.pairwise_lt_range' ..)) fun b => ?_
  have mem := (f.setup g bitmap).mem_roomable b
  rw [mem, setup_node?, List.mem_filter, List.mem_range'_1]
  by_cases all : 1 ≤ b ∧ b ≤ g.cols * g.rows ∧ coreBit bitmap b = false
  · simp only [if_pos all, Option.isSome_some, true_iff]
    exact ⟨by omega, by rw [all.2.2]; rfl⟩
  · simp only [if_neg all, Option.isSome_none, Bool.false_eq_true, false_iff]
    rintro ⟨inside, room⟩
    exact all ⟨by omega, by omega, by simpa using room⟩

theorem FloorModel.setup_nr :
    (f.setup g bitmap).nr = ((List.range' 1 (g.cols * g.rows)).filter fun b => !coreBit bitmap b).length := by
  rw [← setup_roomable g bitmap f]
  rfl

theorem FloorModel.setup_anchor {first : Nat} (low : 1 ≤ first) (high : first ≤ g.cols * g.rows) (room : coreBit bitmap first = false)
    (least : ∀ b, 1 ≤ b → b < first → coreBit bitmap b = true) : (f.setup g bitmap).roomable.head? = some first := by
  rw [setup_roomable, List.head?_filter]
  have sorted : ((List.range' 1 (g.cols * g.rows)).map id).Pairwise (· < ·) := by
    rw [List.map_id]
    exact List.pairwise_lt_range' ..
  refine find?_lowest (key := id) sorted (List.mem_range'_1.2 (by omega)) (by rw [room]; rfl) fun b mem isRoom => ?_
  by_contra below
  have core := least b (List.mem_range'_1.1 mem).1 (Nat.lt_of_not_le below)
  rw [core] at isRoom
  cases isRoom

theorem setupEdges_getElem? {e : Nat} (low : 1 ≤ e) (high : e ≤ edgeCount g.cols g.rows) :
    (setupEdges g bitmap)[e - 1]? =
      some (newEdge (coreBit bitmap (edgeBays g.cols g.rows e).1 || coreBit bitmap (edgeBays g.cols g.rows e).2)) := by
  rw [setupEdges, List.getElem?_map, List.getElem?_range' (by omega), Option.map_some]
  simp only [Nat.one_mul, Nat.add_sub_cancel' low]

end

/-! ### The first grant (R10, R36) -/

section
variable {g : Grid} {bitmap : List Byte} {p : Part}

theorem Part.setupFloor_kickBus_of_busy (busy : p.cbm.bus ≠ .quiet) : (p.setupFloor g bitmap).kickBus = p.setupFloor g bitmap := by
  unfold kickBus
  show (match p.cbm.bus.voided with | .quiet => _ | .hold _ => _ | .sending _ _ => _ | .receiving _ _ _ => _) = _
  cases bus : p.cbm.bus with
  | quiet => exact absurd bus busy
  | hold _ => rfl
  | sending _ _ => rfl
  | receiving _ _ _ => rfl

/-- R10, R26: round 0 begins with the lowest ROOMABLE bay. -/
theorem Part.setupFloor_kickBus_of_quiet {first : Nat} (quiet : p.cbm.bus = .quiet) (slot : p.cbm.passSlot = none) (low : 1 ≤ first)
    (high : first ≤ g.cols * g.rows) (room : coreBit bitmap first = false)
    (least : ∀ b, 1 ≤ b → b < first → coreBit bitmap b = true) :
    (p.setupFloor g bitmap).kickBus =
      (p.setupFloor g bitmap).mapCbm fun c => { c with pollCursor := first, bus := .sending (.poll first) false } := by
  generalize built : p.setupFloor g bitmap = q
  have bus : q.cbm.bus = .quiet := by
    rw [← built]
    exact congrArg Bus.voided quiet
  have node (b : Nat) : q.fm.node? b =
      if 1 ≤ b ∧ b ≤ g.cols * g.rows ∧ coreBit bitmap b = false then some (.setup g.v) else none := by
    rw [← built]
    exact FloorModel.setup_node? g bitmap p.fm b
  have cursor : q.cbm.pollCursor = 0 ∧ q.cbm.driveRun = 0 ∧ q.cbm.drivePending = [] := by
    rw [← built]
    exact ⟨rfl, rfl, rfl⟩
  have due : (q.mapCbm fun c => { c with driveRun := 0 }).dueBay = some first := by
    refine dueBay_of_lowest ⟨?_, _, (node first).trans (if_pos ⟨low, high, room⟩), .inl rfl⟩ ?_
    · show q.cbm.pollCursor < first
      omega
    · rintro d ⟨-, r, node', -⟩
      by_contra below
      have node'' := (node d).symm.trans node'
      by_cases all : 1 ≤ d ∧ d ≤ g.cols * g.rows ∧ coreBit bitmap d = false
      · have core := least d all.1 (Nat.lt_of_not_le below)
        rw [all.2.2] at core
        cases core
      · rw [if_neg all] at node''
        cases node''
  have polls : q.arbitrate = q.grantPolling := by
    refine grantWith_poll ?_ ?_ (.inr ?_)
    · rw [← built]
      exact nofun
    · rw [← built]
      exact slot
    · rintro d ⟨running, -⟩
      rw [← built] at running
      cases running
  rw [kickBus, bus]
  dsimp only
  rw [polls, grantPolling, due]
  dsimp only [grantPoll]
  rw [← built]
  rfl

end

/-- Settles O14: the checks pass, every block is written as R9 and R10 say, and a free bus is granted at once. -/
theorem setupFloorBuildsNewFloor : Obligations.SetupFloorBuildsNewFloor := by
  unfold Obligations.SetupFloorBuildsNewFloor
  intro number body s first free len considered slot dflt g core valid low high room least nr ne zone
  have isGrid : setupGrid body = g := rfl
  have isCore : coreBit (setupBitmap body) = core := rfl
  clear_value g core
  subst isGrid isCore
  generalize taken : ({ s.part with slu := { s.part.slu with assembler := .hunting, inFlight := some ⟨0x02, number⟩ } } : Part) = p
  obtain ⟨cols, rows, bits, someRoom, v, qmax, sr⟩ := valid
  have handled := handleSetupFloor_done (body := body) p len (by rw [← taken]; exact considered)
    ⟨cols, rows, ⟨bits, someRoom⟩, v, qmax, sr⟩
  have count : (p.fm.setup (setupGrid body) (setupBitmap body)).nr = nr := FloorModel.setup_nr (setupGrid body) (setupBitmap body) p.fm
  have edges : edgeCount (setupGrid body).cols (setupGrid body).rows = ne := rfl
  have zone0 : Zone.floorZone (p.fm.setup (setupGrid body) (setupBitmap body)).nr (p.fm.setup (setupGrid body) (setupBitmap body)).m
      (p.fm.setup (setupGrid body) (setupBitmap body)).roomable.head? = zone := by
    rw [FloorModel.setup_anchor (setupGrid body) (setupBitmap body) p.fm low high room least, FloorModel.m, count]
    rfl
  clear_value nr ne zone
  generalize setupGrid body = g at *
  generalize setupBitmap body = bitmap at *
  have count' : (p.setupFloor g bitmap).fm.nr = nr := count
  rw [count', edges] at handled
  have grants : ∃ cursor bus, (p.setupFloor g bitmap).kickBus.cbm
      = { (p.setupFloor g bitmap).cbm with pollCursor := cursor, bus := bus } := by
    by_cases quiet : p.cbm.bus = .quiet
    · rw [Part.setupFloor_kickBus_of_quiet quiet (by rw [← taken]; exact slot) low high room least]
      exact ⟨_, _, rfl⟩
    · rw [Part.setupFloor_kickBus_of_busy quiet]
      exact ⟨_, _, rfl⟩
  have pending : (p.setupFloor g bitmap).kickBus = { p.setupFloor g bitmap with cbm := (p.setupFloor g bitmap).kickBus.cbm } := by
    by_cases quiet : p.cbm.bus = .quiet
    · rw [Part.setupFloor_kickBus_of_quiet quiet (by rw [← taken]; exact slot) low high room least]
      rfl
    · rw [Part.setupFloor_kickBus_of_busy quiet]
  obtain ⟨t, runs, answers, keeps, eq⟩ := takeRequest_answers 0x02 number (handleSetupFloor body) s _ .done 0 _ free
    (by rw [taken]; exact handled) (by rw [pending, ← taken]; rfl)
  have zt : t.part.zt = (p.setupFloor g bitmap).zt := by rw [eq, pending]
  have fm : t.part.fm = p.fm.setup g bitmap := by rw [eq, pending]; rfl
  have pmon : t.part.pmon = (p.setupFloor g bitmap).pmon := by rw [eq, pending]
  have cbm : t.part.cbm = (p.setupFloor g bitmap).kickBus.cbm := by rw [eq]
  refine ⟨t, runs, answers, keeps, by rw [eq], ⟨?fm, ?bays, ?bay⟩, ⟨?pmon, ?edges, ?edge⟩, ?rsq, ?zt, ?cut, ?afa, ?round, ?owed,
    ?cursor, ?run, ?pass, ?bus⟩
  case fm =>
    rw [fm, ← count, ← taken]
    rfl
  case bays =>
    rw [fm]
    show (setupBays g bitmap).length = _
    rw [setupBays, List.length_map, bayNumbers, List.length_range']
  case bay =>
    intro b low high
    rw [fm]
    exact FloorModel.setup_bay? g bitmap p.fm low high
  case pmon =>
    rw [pmon, ← taken]
    rfl
  case edges =>
    rw [pmon]
    show (setupEdges g bitmap).length = _
    rw [setupEdges, List.length_map, List.length_range', edges]
  case edge =>
    intro e low high
    rw [pmon, Pmon.edge?, if_neg (by omega)]
    refine (setupEdges_getElem? g bitmap low (by rw [edges]; exact high)).trans ?_
    rw [newEdge]
  case rsq =>
    rw [eq, pending, ← taken]
    rfl
  case zt =>
    rw [zt, ← zone0]
    rfl
  case cut =>
    rw [eq, pending, ← taken]
    rfl
  case afa =>
    rw [eq, pending, ← count, ← taken]
    rfl
  case bus =>
    have wire : p.cbm.bus = s.part.cbm.bus := by rw [← taken]
    rw [cbm]
    cases bus : s.part.cbm.bus with
    | quiet =>
      rw [Part.setupFloor_kickBus_of_quiet (wire.trans bus) (by rw [← taken]; exact slot) low high room least]
      exact ⟨rfl, rfl⟩
    | hold _ | sending _ _ | receiving _ _ _ =>
      rw [Part.setupFloor_kickBus_of_busy (by rw [wire, bus]; exact nofun)]
      exact ⟨congrArg Bus.voided (wire.trans bus), rfl⟩
  all_goals
    obtain ⟨cursor, bus, granted⟩ := grants
    rw [cbm, granted]
  case pass =>
    rw [← taken]
    exact slot
  all_goals rfl

end Sys2Proof.Machine

/-!
A warm restart (R10, R15, R16, R40, R58, R63, R84, R109, R127, R145, R163, R176), block by block, and the obligation that the blocks
make up.
-/
namespace Sys2Proof.Machine

/-! ### The blocks before the targets and the decision -/

/-- Every block's working state made new around the kept setup and zoning. -/
def Part.restarted (p : Part) : Part where
  slu := p.slu.restarted
  cbm := p.cbm.restarted p.fm.roomable
  fm := p.fm.restarted
  pmon := p.pmon.restarted p.fm.state (p.rsq.seq != .idle) p.fm.clock
  rsq := p.rsq.restarted
  zt := p.zt.restarted.mapZones (Zone.relit p.fm.state p.fm.clock)
  cut := p.cut.restarted
  afa := p.afa.restarted p.fm.state p.fm.clock
  fresh := p.fresh

/-- R63: whether the restart starts a solve. -/
def Part.restartSolves (p : Part) : Bool :=
  p.fm.state == .running && (p.rsq.seq != .idle || p.pmon.owed) && p.pmon.auto

theorem Part.restartSolves_iff (p : Part) : p.restartSolves = true ↔
    (p.fm.state = .running ∧ ((p.rsq.seq != .idle) = true ∨ p.pmon.owed = true)) ∧ p.pmon.auto = true := by
  simp only [restartSolves, Bool.and_eq_true, beq_iff_eq, Bool.or_eq_true]

theorem Part.warmRestart_eq (p : Part) : p.warmRestart = p.restarted.retargetRunning.decideAtIdle := rfl

theorem FloorModel.restarted_state (f : FloorModel) : f.restarted.state = f.state := by
  unfold restarted
  dsimp only
  split <;> rfl

theorem FloorModel.restarted_shape (f : FloorModel) : f.restarted =
    { f with
      bays := f.restarted.bays
      surveyRounds := if f.state = .survey then 0 else f.surveyRounds
      surveyOver := if f.state = .survey then false else f.surveyOver } := by
  obtain ⟨state, grid, nr, spine, rl, clock, rounds, surveyed, bays⟩ := f
  cases state <;> rfl

theorem FloorModel.restarted_node? (f : FloorModel) (b : Nat) : f.restarted.node? b = (f.node? b).map BayRec.restarted := by
  have bays : f.restarted.bays = (f.mapNodes fun _ r => r.restarted).bays := by
    unfold restarted
    dsimp only
    split <;> rfl
  rw [node?_congr bays, node?_mapNodes]

/-- R58: the monitor and its timer in the order of R58's table. -/
theorem Pmon.restarted_shape (floor : FloorState) (discarded : Bool) (now : Clock) (m : Pmon) :
    m.restarted floor discarded now = { m with
      edges := m.edges.map Edge.restarted
      changed := false
      owed := m.owed || (floor == .running && discarded)
      monitor := if floor = .running ∧ (discarded = true ∨ m.owed = true) then .settled
        else if floor = .running ∧ m.netChange ≠ [] then .unsettled else .clean
      quiet := if floor = .running ∧ ¬ (discarded = true ∨ m.owed = true) ∧ m.netChange ≠ [] then .running now m.qt else .stopped } := by
  unfold restarted
  cases floor with
  | unconfigured | survey => simp
  | running =>
    cases discarded <;> cases owed : m.owed <;> cases net : m.netChange <;> simp_all

theorem Part.retargetRunning_shape (p : Part) : p.retargetRunning = { p with fm := p.retargetRunning.fm } := by
  unfold retargetRunning
  split <;> rfl

theorem Part.retargetRunning_frame (p : Part) : p.retargetRunning.fm = { p.fm with bays := p.retargetRunning.fm.bays } := by
  unfold retargetRunning
  split <;> rfl

theorem Part.retargetRunning_node? (p : Part) (b : Nat) : p.retargetRunning.fm.node? b = (p.fm.node? b).map fun r =>
    if p.fm.state = .running then
      match p.zt.zone? r.tag with
      | some z => { r with target := some z.target }
      | none => r
    else r := by
  unfold retargetRunning
  cases state : p.fm.state with
  | running =>
    simp only [if_true]
    exact FloorModel.node?_mapNodes ..
  | survey | unconfigured =>
    simp only [reduceCtorEq, if_false]
    exact Option.map_id'.symm

/-- A warm restart: the blocks made new, the targets, and the decision of R63. -/
theorem Part.warmRestart_shape (p : Part) : p.warmRestart = { p.restarted with
    fm := p.restarted.retargetRunning.fm
    rsq := if p.restartSolves = true then
        { p.rsq.restarted with seq := .solving, snapshot := some ⟨p.restarted.pmon.edges.map Edge.effective, false⟩ }
      else p.rsq.restarted } := by
  have shape := p.restarted.retargetRunning_shape
  have state : p.restarted.retargetRunning.fm.state = p.fm.state := by
    rw [retargetRunning_frame]
    exact FloorModel.restarted_state p.fm
  have rsq : p.restarted.retargetRunning.rsq = p.rsq.restarted := by rw [shape]; rfl
  have pmon : p.restarted.retargetRunning.pmon = p.restarted.pmon := by rw [shape]
  have monitor := p.pmon.restarted_shape p.fm.state (p.rsq.seq != .idle) p.fm.clock
  have unchanged : p.restarted.pmon = { p.restarted.pmon with changed := false } := by
    show p.pmon.restarted .. = { p.pmon.restarted .. with changed := false }
    rw [monitor]
  have unrequested : p.rsq.restarted.requested = false := rfl
  rw [warmRestart_eq]
  by_cases solves : p.restartSolves = true
  · obtain ⟨⟨running, settles⟩, auto⟩ := p.restartSolves_iff.1 solves
    have settled : p.restarted.pmon.monitor = .settled ∧ p.restarted.pmon.auto = true := by
      show (p.pmon.restarted ..).monitor = _ ∧ (p.pmon.restarted ..).auto = _
      rw [monitor]
      exact ⟨if_pos ⟨running, settles⟩, auto⟩
    rw [decideAtIdle_of_asked (state.trans running) (.inr (by rw [pmon]; exact settled)), if_pos solves, startSolve]
    rw [show (p.restarted.retargetRunning.fm.state == .survey) = false by rw [state, running]; rfl, pmon]
    rw [shape]
    unfold mapRsq mapPmon
    dsimp only
    rw [← unchanged]
    rfl
  · have rests : p.restarted.retargetRunning.decideAtIdle = p.restarted.retargetRunning := by
      refine if_neg ?_
      rintro ⟨running, asked⟩
      rw [state] at running
      rw [rsq, unrequested, pmon] at asked
      obtain ⟨settled, auto⟩ := asked.resolve_left nofun
      have settled : (p.pmon.restarted p.fm.state (p.rsq.seq != .idle) p.fm.clock).monitor = .settled := settled
      have auto : (p.pmon.restarted p.fm.state (p.rsq.seq != .idle) p.fm.clock).auto = true := auto
      rw [monitor] at settled auto
      dsimp only at settled auto
      have settles : (p.rsq.seq != .idle) = true ∨ p.pmon.owed = true := by
        by_contra unsettled
        rw [if_neg fun both => unsettled both.2] at settled
        split at settled <;> cases settled
      exact solves (p.restartSolves_iff.2 ⟨⟨running, settles⟩, auto⟩)
    rw [rests, if_neg solves]
    exact shape

/-! ### The zone table (R109, R145) -/

theorem filter_map_slots (keep : Zone → Bool) (g : Zone → Zone) (slots : List (Option Zone)) :
    (slots.map fun o => (o.filter keep).map g).filterMap id = ((slots.filterMap id).filter keep).map g := by
  induction slots with
  | nil => rfl
  | cons o slots ih =>
    rw [List.map_cons]
    cases o with
    | none => exact ih
    | some z =>
      by_cases kept : keep z = true
      · simpa [kept] using ih
      · simpa [kept] using ih

/-- R109, R145: a zone kept by a warm restart. -/
def Zone.renewed (floor : FloorState) (now : Clock) (z : Zone) : Zone := z.restarted.relit floor now

theorem Zone.renewed_eq (floor : FloorState) (now : Clock) (z : Zone) : z.renewed floor now =
    { z with
      life := .live, incoming := 0, outgoing := 0, occupancy := .occupied, manualOff := false
      vacancy := if floor = .survey then .held else .running now z.settings.vacancyDelay } := by
  cases floor <;> rfl

theorem Part.restarted_zones (p : Part) :
    p.restarted.zt.zones = (p.zt.zones.filter fun z => z.life != .born).map (Zone.renewed p.fm.state p.fm.clock) := by
  show (p.zt.restarted.mapZones (Zone.relit p.fm.state p.fm.clock)).zones = _
  rw [Zt.zones_mapZones]
  have kept : p.zt.restarted.zones = (p.zt.zones.filter fun z => z.life != .born).map Zone.restarted := filter_map_slots ..
  rw [kept, List.map_map]
  rfl

/-- The first that a test finds is the first of those that a filter keeps, where it is kept. -/
theorem find?_filter_of_kept {α : Type} {keep test : α → Bool} {l : List α} {x : α} (found : l.find? test = some x) (kept : keep x = true) :
    (l.filter keep).find? test = some x := by
  induction l with
  | nil => cases found
  | cons y ys ih =>
    by_cases tests : test y = true
    · rw [List.find?_cons_of_pos tests] at found
      cases found
      rw [List.filter_cons_of_pos kept, List.find?_cons_of_pos tests]
    · rw [List.find?_cons_of_neg tests] at found
      rw [List.filter_cons]
      split
      · rw [List.find?_cons_of_neg tests, ih found]
      · exact ih found

theorem Part.restarted_zone? {p : Part} {tag : Nat} {z : Zone} (zone : p.zt.zone? tag = some z) (alive : z.life ≠ .born) :
    p.restarted.zt.zone? tag = some (z.renewed p.fm.state p.fm.clock) := by
  rw [Zt.zone?, restarted_zones, List.find?_map]
  have found := find?_filter_of_kept (keep := fun z => z.life != .born) zone (by simpa using alive)
  have same : (fun z : Zone => z.tag == tag) ∘ Zone.renewed p.fm.state p.fm.clock = fun z => z.tag == tag := by
    funext y
    rw [Function.comp_apply, Zone.renewed_eq]
  rw [same, found]
  rfl

theorem Part.restarted_zones_live {p : Part} {z : Zone} (mem : z ∈ p.restarted.zt.zones) :
    z.life = .live ∧ z.incoming = 0 ∧ z.outgoing = 0 ∧ z.occupancy = .occupied ∧ z.manualOff = false := by
  rw [restarted_zones, List.mem_map] at mem
  obtain ⟨y, -, rfl⟩ := mem
  rw [Zone.renewed_eq]
  exact ⟨rfl, rfl, rfl, rfl, rfl⟩

theorem Part.restarted_tags (p : Part) (tag : Nat) :
    (∃ z ∈ p.restarted.zt.zones, z.tag = tag) ↔ ∃ z ∈ p.zt.zones, z.tag = tag ∧ z.life ≠ .born := by
  rw [restarted_zones]
  constructor
  · rintro ⟨z, mem, named⟩
    obtain ⟨y, kept, rfl⟩ := List.mem_map.1 mem
    obtain ⟨mem', alive⟩ := List.mem_filter.1 kept
    rw [Zone.renewed_eq] at named
    exact ⟨y, mem', named, by simpa using alive⟩
  · rintro ⟨z, mem, named, alive⟩
    exact ⟨_, List.mem_map_of_mem (List.mem_filter.2 ⟨mem, by simpa using alive⟩), by rw [Zone.renewed_eq]; exact named⟩

theorem Part.mem_restarted_pins (p : Part) (x : Pin) :
    x ∈ p.restarted.zt.pins ↔ x ∈ p.zt.pins ∧ ∀ z ∈ p.zt.zones, z.life = .born → z.tag ≠ x.tag := by
  show x ∈ p.zt.pins.filter (fun x => decide (x.tag ∉ (p.zt.zones.filter fun z => z.life = .born).map Zone.tag)) ↔ _
  rw [List.mem_filter, decide_eq_true_iff]
  refine and_congr_right fun _ => ?_
  simp only [List.mem_map, List.mem_filter, decide_eq_true_eq, not_exists, not_and, and_imp, ne_eq]

theorem Edge.restarted_eq (x : Edge) : x.restarted = if x.kind = .sensed then
    { x with
      candidate := none
      raw := match x.settled with
        | .walled => .present
        | .opened => .absent
        | .unknown => .unknown }
    else x := by
  unfold restarted
  cases kind : x.kind <;> rfl

/-! ### The end of the reply that ordered it (R170) -/

/-- The part when the last byte of the reply that ordered a warm restart has been sent. -/
def Part.replied (p : Part) : Part := p.mapSlu fun u => { u with tx := .idle, replySlot := none, inFlight := none, restartOwed := none }

theorem exec_frameSent_warm {f : Frame} {s : State} (sending : s.part.slu.tx = .sending .reply f) (owed : s.part.slu.restartOwed = some .warm) :
    exec .frameSent s = .next { s with part := s.part.replied.warmRestart.choose } := by
  show Host.Outcome.next { s with part := s.part.frameSent } = _
  rw [Part.frameSent, sending]
  dsimp only
  rw [Part.endReply, owed]
  rfl

/-- R171: after a warm restart only an OVERLAP reply can be waiting. -/
theorem Slu.choose_of_empty {u : Slu} (idle : u.tx = .idle) (noReply : u.replySlot = none) (noQueue : u.queue = []) :
    u.choose.queue = [] ∧ u.choose.lost = u.lost ∧ match u.overlapSlot with
      | some o => u.choose.tx = .sending .overlap o
      | none => u.choose.tx = .idle := by
  unfold choose nextReply
  rw [idle, noReply]
  cases u.overlapSlot with
  | some o => exact ⟨noQueue, rfl, rfl⟩
  | none =>
    dsimp only
    rw [beginReport, noQueue]
    exact ⟨noQueue, rfl, idle⟩

/-- Settles O11: the blocks made new, the targets recomputed over them, and R63's decision at the end. -/
theorem warmRestartKeepsSetupAndClearsWork : Obligations.WarmRestartKeepsSetupAndClearsWork := by
  unfold Obligations.WarmRestartKeepsSetupAndClearsWork
  intro f s sending owed
  dsimp only
  have runs := exec_frameSent_warm sending owed
  generalize replied : s.part.replied = p at runs
  have shape := p.warmRestart_shape
  have fm : p.fm = s.part.fm := by rw [← replied]; rfl
  have zt : p.zt = s.part.zt := by rw [← replied]; rfl
  have pmon : p.pmon = s.part.pmon := by rw [← replied]; rfl
  have rsq : p.rsq = s.part.rsq := by rw [← replied]; rfl
  have tSlu : p.warmRestart.choose.slu = p.slu.restarted.choose := by rw [Part.choose_slu, shape]; rfl
  have tFm : p.warmRestart.choose.fm = p.restarted.retargetRunning.fm := by rw [Part.choose_fm, shape]
  have tZt : p.warmRestart.choose.zt = p.restarted.zt := by rw [Part.choose_zt, shape]
  have tPmon : p.warmRestart.choose.pmon = p.restarted.pmon := by rw [Part.choose_pmon, shape]
  have monitor : p.restarted.pmon = p.pmon.restarted p.fm.state (p.rsq.seq != .idle) p.fm.clock := rfl
  rw [Pmon.restarted_shape] at monitor
  have frame := p.restarted.retargetRunning_frame
  have restartedFm : p.restarted.fm = p.fm.restarted := rfl
  have state : p.restarted.fm.state = s.part.fm.state := by rw [restartedFm, FloorModel.restarted_state, fm]
  refine ⟨_, runs, rfl, ?slu, ?fm, fun b r node => ?node, ?cbm, ?pmon, ?rsq, ?zt, ?cut, ?afa⟩
  case slu =>
    obtain ⟨queue, lost, tx⟩ := Slu.choose_of_empty (u := p.slu.restarted) (by rw [← replied]; rfl) (by rw [← replied]; rfl) rfl
    obtain ⟨assembler, inFlight, replySlot, mask, restartOwed⟩ := p.slu.restarted.choose_keeps
    rw [tSlu, assembler, inFlight, replySlot, mask, restartOwed, queue, lost]
    rw [← replied] at tx ⊢
    exact ⟨rfl, rfl, rfl, rfl, rfl, rfl, rfl, tx⟩
  case fm =>
    rw [tFm, frame, restartedFm, FloorModel.restarted_shape, fm]
    exact ⟨rfl, rfl, rfl, rfl, rfl, rfl, fun survey => ⟨if_pos survey, if_pos survey⟩⟩
  case node =>
    rw [tFm, Part.retargetRunning_node?, restartedFm, FloorModel.restarted_node?, FloorModel.restarted_state, fm, node, tZt]
    by_cases live : s.part.fm.state = .running
    · simp only [Option.map_some, if_pos live, BayRec.restarted]
      cases zone : p.restarted.zt.zone? r.tag with
      | none => exact ⟨r.target, rfl, fun _ z held => (by cases held), fun notLive => absurd live notLive⟩
      | some z =>
        obtain ⟨-, -, -, occupied, lit⟩ := Part.restarted_zones_live (p := p) (List.mem_of_find?_eq_some zone)
        refine ⟨some z.target, rfl, fun _ y held => ?_, fun notLive => absurd live notLive⟩
        cases held
        rw [Zone.target_eq, lit, occupied]
        rfl
    · simp only [Option.map_some, if_neg live, BayRec.restarted]
      exact ⟨r.target, rfl, fun isLive => absurd isLive live, fun _ => rfl⟩
  case cbm =>
    rw [Part.choose_cbm, shape]
    show (p.cbm.restarted p.fm.roomable).pollCursor = 0 ∧ _
    refine ⟨rfl, rfl, rfl, rfl, rfl, fun b => ?_, ?_⟩
    · rw [← fm]
      exact p.fm.mem_roomable b
    · rw [← replied]
      show s.part.cbm.bus.voided = _
      cases s.part.cbm.bus <;> rfl
  case pmon =>
    rw [tPmon, monitor, rsq, pmon, fm]
    have busy : (s.part.rsq.seq != .idle) = true ↔ s.part.rsq.seq ≠ .idle := bne_iff_ne
    refine ⟨rfl, rfl, rfl, rfl, rfl, fun discards => ?_, fun keeps => ?_, fun settled => ?_, fun waits => ?_, fun noWait => ?_,
      fun unsettled noWait => ?_, List.length_map .., fun e x held => ?_⟩
    · simp [discards.1, discards.2]
    · have keeps' : (s.part.fm.state == .running && s.part.rsq.seq != .idle) = false := by
        rw [Bool.eq_false_iff, ne_eq, Bool.and_eq_true, beq_iff_eq, busy]
        exact keeps
      show (s.part.pmon.owed || (s.part.fm.state == .running && s.part.rsq.seq != .idle)) = _
      rw [keeps', Bool.or_false]
    · exact if_pos ⟨settled.1, settled.2.imp_left busy.2⟩
    · obtain ⟨live, idle, unowed, changes⟩ := waits
      have unsettled : ¬ ((s.part.rsq.seq != .idle) = true ∨ s.part.pmon.owed = true) := by simp [idle, unowed]
      exact ⟨(if_neg fun both => unsettled both.2).trans (if_pos ⟨live, changes⟩), if_pos ⟨live, unsettled, changes⟩⟩
    · refine if_neg fun ⟨live, unsettled, changes⟩ => noWait ⟨live, ?_, ?_, changes⟩
      · exact not_not.1 fun seq => unsettled (.inl (busy.2 seq))
      · exact Bool.eq_false_iff.2 fun owes => unsettled (.inr owes)
    · refine (if_neg fun both => unsettled ⟨both.1, both.2.imp_left busy.1⟩).trans (if_neg fun ⟨live, changes⟩ => noWait ⟨live, ?_, ?_, changes⟩)
      · exact not_not.1 fun seq => unsettled ⟨live, .inl seq⟩
      · exact Bool.eq_false_iff.2 fun owes => unsettled ⟨live, .inr owes⟩
    · refine (Pmon.edge?_mapEdges s.part.pmon Edge.restarted e).trans ?_
      rw [held]
      exact congrArg some x.restarted_eq
  case rsq =>
    have solves := p.restartSolves_iff
    rw [fm, rsq, pmon, bne_iff_ne] at solves
    have tRsq : p.warmRestart.choose.rsq = if p.restartSolves = true then
        { p.rsq.restarted with seq := .solving, snapshot := some ⟨p.restarted.pmon.edges.map Edge.effective, false⟩ }
      else p.rsq.restarted := by rw [Part.choose_rsq, shape]
    rw [tRsq, tPmon]
    refine ⟨?_, ?_, fun starts => ?_, fun rests => ?_⟩
    · split <;> rfl
    · rw [← rsq]
      split <;> rfl
    · rw [if_pos (solves.2 starts)]
      exact ⟨rfl, rfl⟩
    · rw [if_neg fun starts => rests (solves.1 starts)]
      exact ⟨rfl, rfl⟩
  case zt =>
    rw [tZt, ← zt]
    refine ⟨rfl, fun tag z zone alive => ?_, fun z mem => Part.restarted_zones_live mem, p.restarted_tags, p.mem_restarted_pins⟩
    rw [Part.restarted_zone? zone alive, Zone.renewed_eq, fm]
  case cut =>
    rw [Part.choose_cut, shape, ← replied]
    rfl
  case afa =>
    rw [Part.choose_afa, shape, ← replied]
    show s.part.afa.restarted s.part.fm.state s.part.fm.clock = _
    unfold Afa.restarted
    cases s.part.fm.state <;> rfl

end Sys2Proof.Machine

/-!
Invariants of the commands: what has to be shown of a condition on the part for every step to keep it, and the two that the frame of
the operations (`Part.Keeps`) gives nearly whole: the parameters' ranges and the drive-pending set.
-/
namespace Sys2Proof.Machine

/-! ### What every command does, in its parts -/

/-- A condition that neither the link nor the wire can break, kept by each event and by each request's effect. -/
structure StepKept (I : Part → Prop) : Prop where
  link : ∀ {p : Part} (u : Slu), I p → I { p with slu := u }
  wire : ∀ {p : Part} (bus : Bus) (slot : Option PassRequest), I p → I (p.mapCbm fun c => { c with bus := bus, passSlot := slot })
  grant : ∀ {p : Part}, I p → I p.arbitrate
  round : ∀ {p : Part}, I p → I p.completeRound.arbitrateAfterHold
  failed : ∀ {p : Part} (b : Nat) (cause : FailureCause), I p → I (p.failed b cause)
  polled : ∀ {p : Part} (b : Nat) (reply : PollReply), I p → I (p.validPoll b reply)
  driven : ∀ {p : Part} (b : Nat) (sent : Pair), I p → I (p.validDrive b sent)
  quiet : ∀ {p : Part}, I p → I p.quietExpiry
  solved : ∀ {p : Part}, I p → I p.completeSolve
  stepped : ∀ {p : Part}, I p → I p.stepExpiry
  overdue : ∀ {p : Part}, I p → I p.deadlineExpiry
  vacated : ∀ {p : Part} (tag : Nat), I p → I (p.vacancyExpiry tag)
  faded : ∀ {p : Part}, I p → I p.fadeTick
  shared : ∀ {p : Part}, p.afa.timer.mayExpire p.fm.clock = true → I p → I p.allocate
  ticked : ∀ {p : Part}, I p → I (p.mapFm fun f => { f with clock := f.clock + 1 })
  cold : ∀ n, I { Part.cold with fresh := n }
  warm : ∀ {p : Part}, I p → I p.warmRestart
  request : ∀ {p q : Part}, RequestEffect p q → I p → I q

namespace StepKept
variable {I : Part → Prop} (k : StepKept I) {p : Part}
include k

theorem bus (bus : Bus) (h : I p) : I (p.mapCbm fun c => { c with bus := bus }) := k.wire bus p.cbm.passSlot h

theorem kickBus (h : I p) : I p.kickBus := by
  unfold Part.kickBus
  split
  · exact k.grant h
  all_goals exact h

theorem choose (h : I p) : I p.choose := k.link _ h

theorem takeRequest (kind number : Byte) {handle : Part → Part × Option Reply} (handled : ∀ p, Handled p (handle p)) (h : I p) :
    I (p.takeRequest kind number handle) := by
  unfold Part.takeRequest
  dsimp only
  split
  · exact k.choose (k.link _ (k.link _ h))
  · generalize taken : (p.mapSlu fun u => { u with assembler := .hunting }).mapSlu (fun u => { u with inFlight := some ⟨kind, number⟩ }) = q
    have start : I q := by
      rw [← taken]
      exact k.link _ (k.link _ h)
    have result := handled q
    split
    next q' r eq =>
      rw [eq] at result
      cases result with
      | refused => exact k.choose (k.link _ start)
      | taken _ _ effect => exact k.choose (k.link _ (k.request effect start))
    next q' eq =>
      rw [eq] at result
      cases result with
      | waits bay raw => exact k.choose (k.kickBus (k.wire q.cbm.bus (some ⟨bay, raw⟩) start))

theorem takeFrame (kind number : Byte) (body : List Byte) (h : I p) : I (p.takeFrame kind number body) := by
  unfold Part.takeFrame
  split
  · exact k.link _ h
  · exact k.takeRequest kind number (fun _ => Handled.handlerOf body kind) h

theorem receiveByte (data : Byte) (stopLow : Bool) (h : I p) : I (p.receiveByte data stopLow) := by
  unfold Part.receiveByte Part.completeFrame
  dsimp only
  split
  · split
    · exact k.link _ h
    · exact h
  · split
    · exact k.link _ h
    · split
      · split <;> exact k.link _ h
      · split
        · split
          · split
            · exact k.takeFrame _ _ _ h
            · exact k.link _ h
          · exact k.link _ h
        · exact k.link _ h

theorem applyOutcome (t : Transaction) (chars : List RxChar) (h : I p) : I (p.applyOutcome t chars) := by
  cases t with
  | poll b =>
    simp only [Part.applyOutcome]
    split
    · exact k.failed _ _ h
    · exact k.polled _ _ h
  | drive b sent =>
    simp only [Part.applyOutcome]
    split
    · exact k.failed _ _ h
    · exact k.driven _ _ h
  | pass b body => exact k.link _ (k.wire p.cbm.bus none h)

theorem endReception (h : I p) : I p.endReception := by
  unfold Part.endReception
  split
  case h_1 t void chars bus =>
    have quiet : I (p.mapCbm fun c => { c with bus := .quiet }) := k.bus .quiet h
    cases void with
    | true => exact k.choose (k.grant quiet)
    | false => exact k.choose (k.grant (k.applyOutcome t chars quiet))
  all_goals exact h

theorem frameSent (h : I p) : I p.frameSent := by
  unfold Part.frameSent
  split
  · exact h
  · refine k.choose ?_
    unfold Part.endReply
    dsimp only
    split
    · exact k.warm (k.link _ h)
    · exact k.cold _
    · exact k.link _ h
  · exact k.choose (k.link _ h)
  · exact k.choose (k.link _ h)

/-- Every command keeps it. -/
theorem effect (c : Instr) (p : Part) (h : I p) : I (p.effect c) := by
  unfold Part.effect
  split
  · exact k.takeFrame _ _ _ h
  · cases c with
    | coldRestart => exact k.cold _
    | frameDiscard => exact k.link _ h
    | frameGap =>
      simp only [Part.eventEffect, Part.gap]
      split
      · exact k.link _ h
      · exact h
    | frameSent => exact k.frameSent h
    | receptionEnd => exact k.endReception h
    | idleHoldEnd =>
      simp only [Part.eventEffect, Part.endHold]
      split
      · exact k.grant h
      · exact k.round h
      all_goals exact h
    | quietTimerExpiry => exact k.quiet h
    | solveCompletion => exact k.choose (k.solved h)
    | stepTimerExpiry => exact k.choose (k.stepped h)
    | deadlineExpiry => exact k.choose (k.overdue h)
    | vacancyTimerExpiry tag => exact k.choose (k.vacated tag h)
    | fadeTick => exact k.faded h
    | allocationIntervalExpiry =>
      simp only [Part.eventEffect]
      split
      · next may => exact k.choose (k.shared may h)
      · exact h
    | floorClockTick => exact k.ticked h
    | frameByteReceived data stopLow => exact k.receiveByte data stopLow h
    | cbRequestSent =>
      simp only [Part.eventEffect, Part.openReception]
      split
      · exact k.bus _ h
      all_goals exact h
    | cbReplyCharacter data mark low =>
      simp only [Part.eventEffect, Part.receiveCharacter]
      split
      · split
        · exact k.endReception (k.bus _ h)
        · exact k.bus _ h
      all_goals exact h
    | _ => exact h

end StepKept

/-! ### Conditions that the operations' frame gives -/

/-- A condition that the frame of the operations keeps: what is left to show is about the operations outside it. -/
structure FrameKept (I : Part → Prop) : Prop where
  keeps : ∀ {p q : Part}, p.Keeps q → I p → I q
  link : ∀ {p : Part} (u : Slu), I p → I { p with slu := u }
  wire : ∀ {p : Part} (bus : Bus) (slot : Option PassRequest), I p → I (p.mapCbm fun c => { c with bus := bus, passSlot := slot })
  grant : ∀ {p : Part}, I p → I p.arbitrate
  round : ∀ {p : Part}, I p → I p.completeRound.arbitrateAfterHold
  driven : ∀ {p : Part} (b : Nat) (sent : Pair), I p → I (p.validDrive b sent)
  runs : ∀ {p : Part}, I p → I (p.mapFm fun f => { f with state := .running })
  ticked : ∀ {p : Part}, I p → I (p.mapFm fun f => { f with clock := f.clock + 1 })
  cold : ∀ n, I { Part.cold with fresh := n }
  warm : ∀ {p : Part}, I p → I p.warmRestart
  newFloor : ∀ {p : Part} {g : Grid} {bitmap : List Byte}, setupFieldFault g bitmap = none → I p → I (p.setupFloor g bitmap)
  roles : ∀ {p : Part} {rl : Nat} {bays : List Nat}, p.fm.rolesFault rl bays = none → I p →
    I (p.mapFm fun f => { f with rl := rl, spine := spineOf bays })
  auto : ∀ {p : Part} (auto : Bool) (qt : Nat), I p → I (p.mapPmon fun m => { m with auto := auto, qt := clamp 5 600 qt })
  pacing : ∀ {p : Part} (mode : Pacing) (interval limit : Nat), I p → I (p.repacing mode interval limit)
  supply : ∀ {p : Part} (budget interval : Nat), I p → I (p.supplied budget interval)

theorem FrameKept.stepKept {I : Part → Prop} (k : FrameKept I) : StepKept I where
  link := k.link
  wire := k.wire
  grant := k.grant
  round := k.round
  failed b cause := k.keeps (.failed b cause _)
  polled b reply := k.keeps (.validPoll b reply _)
  driven := k.driven
  quiet := k.keeps (.quietExpiry _)
  solved {p} h := by
    unfold Part.completeSolve
    split
    · split
      · exact k.keeps (.discardSolve p) h
      · dsimp only
        split
        · exact k.keeps (.raise _ _) (k.runs (k.keeps (((((Part.Keeps.commit _ _ p).trans (.handOff _ _)).trans (.lightFloor _)).trans
            (.allocate _)).trans (.joinAll _)) h))
        · exact k.keeps ((Part.Keeps.commit _ _ p).trans (.handOff _ _)) h
    · exact h
  stepped := k.keeps (.stepExpiry _)
  overdue := k.keeps (.deadlineExpiry _)
  vacated tag := k.keeps (.vacancyExpiry tag _)
  faded := k.keeps (.fadeTick _)
  shared _ := k.keeps (.allocate _)
  ticked := k.ticked
  cold := k.cold
  warm := k.warm
  request {p q} effect h := by
    cases effect with
    | reads => exact h
    | draws => exact k.keeps (.draw p) h
    | setupFloor g bitmap considered valid =>
      have built := k.newFloor valid h
      unfold Part.kickBus
      split
      · exact k.grant built
      all_goals exact built
    | takeRoles rl bays floor steady valid =>
      rw [Part.takeRoles_eq]
      split
      · exact k.keeps (.rolesChanged _) (k.roles valid h)
      · exact k.roles valid h
    | setAuto auto qt =>
      unfold Part.setAuto
      dsimp only
      split
      · exact k.keeps (.notice _) (k.auto auto qt h)
      · exact k.auto auto qt h
    | startSolve => exact k.keeps (.startSolve p) h
    | askSolve => exact k.keeps (.mapRsq _ p) h
    | setPacing mode interval limit => exact k.keeps (.repacing mode interval limit p) (k.pacing mode interval limit h)
    | hasten => exact k.keeps (.cutRemaining _ p) h
    | setSupply budget interval => exact k.keeps (p.supplied_keeps budget interval) (k.supply budget interval h)
    | setZone tag requested => exact k.keeps ((Part.Keeps.mapZt _ p).trans (.retargetZone tag _)) h
    | overrides entries => exact k.keeps (.applyOverrides entries p) h
    | pins pins => exact k.keeps (.mapZt _ p) h
    | mask mask => exact k.link _ h
    | owes o => exact k.link _ h

end Sys2Proof.Machine

/-!
The parameters' ranges and the drive-pending set, kept by every step (R4, R31, R54, R112, R147).
-/
namespace Sys2Proof.Machine

/-! ### The counts of the cell bus (R26, R36) -/

/-- R36: at most four drives in a run, and the round number in its range. -/
def Cbm.Counts (c : Cbm) : Prop := c.driveRun ≤ 4 ∧ c.roundNumber < 65536

theorem Part.grantWith_counts {poll : Part → Part} {p : Part} (h : p.cbm.Counts) (polls : (poll p).cbm.Counts) :
    (p.grantWith poll).cbm.Counts := by
  unfold grantWith
  split
  · exact h
  all_goals
    split
    · exact h
    · split
      · split
        · next few => exact ⟨few, h.2⟩
        · exact polls
      · exact polls

theorem Part.pollOrHold_counts {p : Part} (h : p.cbm.Counts) : p.pollOrHold.cbm.Counts := by
  unfold pollOrHold
  split <;> exact h

theorem Part.completeRound_counts {p : Part} (h : p.cbm.Counts) : p.completeRound.cbm.Counts := by
  rw [completeRound_cbm]
  exact ⟨h.1, Nat.mod_lt _ (by omega)⟩

theorem Part.grantPolling_counts {p : Part} (h : p.cbm.Counts) : p.grantPolling.cbm.Counts := by
  have fresh : (p.mapCbm fun c => { c with driveRun := 0 }).cbm.Counts := ⟨Nat.zero_le _, h.2⟩
  unfold grantPolling
  dsimp only
  split
  · exact fresh
  · exact pollOrHold_counts (completeRound_counts fresh)

theorem Part.arbitrate_counts {p : Part} (h : p.cbm.Counts) : p.arbitrate.cbm.Counts := grantWith_counts h (grantPolling_counts h)

theorem Part.arbitrateAfterHold_counts {p : Part} (h : p.cbm.Counts) : p.arbitrateAfterHold.cbm.Counts :=
  grantWith_counts h (pollOrHold_counts (p := p.mapCbm fun c => { c with driveRun := 0 }) ⟨Nat.zero_le _, h.2⟩)

/-- R11: what a completed round leaves of the floor model, the monitor and the sequencer. -/
theorem Part.completeRound_cases (p : Part) :
    (∃ rounds cbm, p.completeRound = { p with cbm := cbm, fm := { p.fm with surveyRounds := rounds } })
      ∨ (SurveyEndsNext p ∧ ∃ cbm, p.completeRound =
          { (p.mapFm fun f => { f with surveyRounds := f.surveyRounds + 1 }).endSurvey with cbm := cbm }) := by
  rw [completeRound, countRound_mapCbm]
  by_cases ends : SurveyEndsNext p
  · rw [countRound_of_ending ends]
    exact .inr ⟨ends, _, rfl⟩
  · rw [countRound_of_not_ending ends]
    by_cases counts : p.fm.state = .survey ∧ p.fm.surveyOver = false
    · rw [if_pos counts]
      exact .inl ⟨_, _, rfl⟩
    · rw [if_neg counts]
      exact .inl ⟨p.fm.surveyRounds, _, rfl⟩

/-! ### The parameters -/

theorem ParameterRanges.of_same {p q : Part} (h : ParameterRanges p) (rl : q.fm.rl = p.fm.rl) (qt : q.pmon.qt = p.pmon.qt)
    (interval : q.cut.interval = p.cut.interval) (limit : q.cut.limit = p.cut.limit) (ai : q.afa.ai = p.afa.ai)
    (counts : q.cbm.Counts) : ParameterRanges q := by
  obtain ⟨rlRange, qtRange, intervalRange, limitRange, aiRange, -⟩ := h
  unfold ParameterRanges
  rw [rl, qt, interval, limit, ai]
  exact ⟨rlRange, qtRange, intervalRange, limitRange, aiRange, counts⟩

theorem ParameterRanges.counts {p : Part} (h : ParameterRanges p) : p.cbm.Counts := h.2.2.2.2.2

theorem clamp_range {lo hi : Nat} (le : lo ≤ hi) (x : Nat) : lo ≤ clamp lo hi x ∧ clamp lo hi x ≤ hi := by
  unfold clamp
  omega

theorem FloorModel.rolesFault_eq_none {f : FloorModel} {rl : Nat} {bays : List Nat} (valid : f.rolesFault rl bays = none) :
    2 ≤ rl ∧ rl ≤ 96 := by
  unfold rolesFault at valid
  split at valid
  · cases valid
  · split at valid
    · cases valid
    · omega

theorem parameterRanges_frameKept : FrameKept ParameterRanges where
  keeps keeps h := h.of_same (by rw [keeps.fm]) keeps.qt keeps.interval keeps.limit (by rw [keeps.afa])
    (by rw [keeps.cbm]; exact h.counts)
  link u h := h
  wire bus slot h := h
  grant {p} h := by
    have counts := Part.arbitrate_counts h.counts
    obtain ⟨rounds, cbm, eq⟩ | ⟨-, cbm, eq⟩ := p.arbitrate_cases <;> rw [eq] at counts ⊢
    · exact h.of_same rfl rfl rfl rfl rfl counts
    · exact h.of_same rfl rfl rfl rfl rfl counts
  round {p} h := by
    have same := p.completeRound.arbitrateAfterHold_sameButCbm
    have counts := Part.arbitrateAfterHold_counts (Part.completeRound_counts h.counts)
    generalize p.completeRound.arbitrateAfterHold = q at same counts
    obtain ⟨rounds, cbm, eq⟩ | ⟨-, cbm, eq⟩ := p.completeRound_cases <;> rw [eq] at same <;> rw [same] at counts ⊢
    · exact h.of_same rfl rfl rfl rfl rfl counts
    · exact h.of_same rfl rfl rfl rfl rfl counts
  driven b sent h := by
    unfold Part.validDrive
    dsimp only
    split
    · split <;> exact h
    · exact h
  runs h := h
  ticked h := h
  cold n := by
    unfold ParameterRanges
    simp [Part.cold, Cbm.cold, FloorModel.cold, Pmon.cold, Cut.cold, Afa.cold]
  warm {p} h := by
    have shape := p.warmRestart_shape
    have monitor := p.pmon.restarted_shape p.fm.state (p.rsq.seq != .idle) p.fm.clock
    refine h.of_same ?_ ?_ ?_ ?_ ?_ ?_ <;> rw [shape]
    · show p.restarted.retargetRunning.fm.rl = _
      rw [Part.retargetRunning_frame]
      show p.fm.restarted.rl = _
      rw [FloorModel.restarted_shape]
    · show (p.pmon.restarted p.fm.state (p.rsq.seq != .idle) p.fm.clock).qt = _
      rw [monitor]
    · rfl
    · rfl
    · show (p.afa.restarted p.fm.state p.fm.clock).ai = _
      unfold Afa.restarted
      split <;> rfl
    · exact ⟨Nat.zero_le _, Nat.zero_lt_succ _⟩
  newFloor valid h := by
    obtain ⟨-, qt, interval, limit, ai, -⟩ := h
    exact ⟨⟨show 2 ≤ 24 by omega, show 24 ≤ 96 by omega⟩, qt, interval, limit, ai, Nat.zero_le _, Nat.zero_lt_succ _⟩
  roles {p rl bays} valid h := by
    obtain ⟨-, rest⟩ := h
    exact ⟨FloorModel.rolesFault_eq_none valid, rest⟩
  auto auto qt h := by
    obtain ⟨rl, -, rest⟩ := h
    exact ⟨rl, clamp_range (by decide) qt, rest⟩
  pacing mode interval limit h := by
    obtain ⟨rl, qt, -, -, rest⟩ := h
    exact ⟨rl, qt, clamp_range (by decide) interval, clamp_range (by decide) limit, rest⟩
  supply budget interval h := by
    obtain ⟨rl, qt, step, limit, -, counts⟩ := h
    exact ⟨rl, qt, step, limit, clamp_range (by decide) interval, counts⟩

/-! ### The drive-pending set (R31) -/

theorem Part.arbitrateAfterHold_drivePending (p : Part) : p.arbitrateAfterHold.cbm.drivePending = p.cbm.drivePending := by
  obtain ⟨bus, grant⟩ | ⟨b, pair, grant⟩ | grant := p.grantWith_cases (fun p => (p.mapCbm fun c => { c with driveRun := 0 }).pollOrHold)
    <;> rw [arbitrateAfterHold, grant]
  · rfl
  · rfl
  · exact Part.pollOrHold_drivePending _

theorem PendingLaws.of_same {p q : Part} (h : PendingLaws p) (pending : q.cbm.drivePending = p.cbm.drivePending)
    (roomable : ∀ b, (q.fm.node? b).isSome = (p.fm.node? b).isSome) : PendingLaws q := by
  obtain ⟨sorted, members⟩ := h
  unfold PendingLaws
  rw [pending]
  exact ⟨sorted, fun b mem => (roomable b).trans (members b mem)⟩

theorem removeSet_sorted {l : List Nat} (b : Nat) (sorted : l.Pairwise (· < ·)) : (removeSet b l).Pairwise (· < ·) := sorted.filter _

theorem pendingLaws_frameKept : FrameKept PendingLaws where
  keeps keeps h := keeps.pending h
  link u h := h
  wire bus slot h := h
  grant {p} h := h.of_same p.arbitrate_drivePending fun b => by rw [Part.arbitrate_node?]
  round {p} h := by
    have same := p.completeRound.arbitrateAfterHold_sameButCbm
    refine h.of_same ((Part.arbitrateAfterHold_drivePending _).trans p.completeRound_drivePending) fun b => ?_
    rw [same]
    exact congrArg Option.isSome (p.completeRound_node? b)
  driven {p} b sent h := by
    have stored : PendingLaws ((p.modifyNode b fun r => { r with failures := 0, lastSent := some sent }).mapCbm fun c =>
        { c with drivePending := removeSet b c.drivePending }) := by
      have written : PendingLaws (p.modifyNode b fun r => { r with failures := 0, lastSent := some sent }) := (Part.Keeps.modifyNode b _ p).pending h
      exact ⟨removeSet_sorted b written.1, fun c mem => written.2 c ((mem_removeSet ..).1 mem).1⟩
    unfold Part.validDrive
    dsimp only
    split
    · next now shows =>
      split
      · exact stored
      · refine Part.joinPending_laws b _ ?_ stored
        cases node : ((p.modifyNode b fun r => { r with failures := 0, lastSent := some sent }).fm.node? b) with
        | none => rw [Part.mapCbm_fm, node] at shows; cases shows
        | some r => rw [Part.mapCbm_fm, node]; rfl
    · exact stored
  runs h := h
  ticked h := h
  cold n := ⟨List.Pairwise.nil, nofun⟩
  warm {p} h := by
    rw [Part.warmRestart_shape]
    refine ⟨p.fm.nodes_sorted, fun b mem => ?_⟩
    have roomable := (p.fm.mem_roomable b).1 mem
    show (p.restarted.retargetRunning.fm.node? b).isSome = true
    rw [Part.retargetRunning_node?, Option.isSome_map]
    show (p.fm.restarted.node? b).isSome = true
    rw [FloorModel.restarted_node?, Option.isSome_map]
    exact roomable
  newFloor valid h := ⟨List.Pairwise.nil, nofun⟩
  roles valid h := h
  auto auto qt h := h
  pacing mode interval limit h := h
  supply budget interval h := h

end Sys2Proof.Machine

/-!
Conditions on the partition monitor and the sequencer: what has to be shown of one for every step to keep it, operation by operation.
-/
namespace Sys2Proof.Machine

/-- The floor state, the monitor and the sequencer are the same. -/
structure Part.SameMonitor (p q : Part) : Prop where
  state : q.fm.state = p.fm.state
  pmon : q.pmon = p.pmon
  rsq : q.rsq = p.rsq

namespace Part.SameMonitor
variable {p q r : Part}

theorem refl (p : Part) : p.SameMonitor p := ⟨rfl, rfl, rfl⟩

theorem trans (pq : p.SameMonitor q) (qr : q.SameMonitor r) : p.SameMonitor r :=
  ⟨qr.state.trans pq.state, qr.pmon.trans pq.pmon, qr.rsq.trans pq.rsq⟩

theorem of_keeps (keeps : p.Keeps q) (pmon : q.pmon = p.pmon) (rsq : q.rsq = p.rsq) : p.SameMonitor q := ⟨keeps.state, pmon, rsq⟩

theorem cutBays (bs : List Nat) (p : Part) : p.SameMonitor (p.cutBays bs) := of_keeps (.cutBays bs p) (cutBays_pmon ..) (cutBays_rsq ..)

theorem cutBay (b : Nat) (p : Part) : p.SameMonitor (p.cutBay b) := of_keeps (.cutBay b p) (cutBay_pmon ..) (cutBay_rsq ..)

theorem mapCut (f : Cut → Cut) (p : Part) : p.SameMonitor (p.mapCut f) := ⟨rfl, rfl, rfl⟩

theorem mapZt (f : Zt → Zt) (p : Part) : p.SameMonitor (p.mapZt f) := ⟨rfl, rfl, rfl⟩

theorem modifyNode (b : Nat) (f : BayRec → BayRec) (p : Part) : p.SameMonitor (p.modifyNode b f) := ⟨rfl, rfl, rfl⟩

theorem tellLighting (b : Nat) (occupied : Bool) (key : Option Key) (p : Part) : p.SameMonitor (p.tellLighting b occupied key) := by
  have flagged (tag : Nat) (p : Part) : p.SameMonitor (p.occupiedFlag tag occupied) :=
    of_keeps (.occupiedFlag tag occupied p) (occupiedFlag_pmon ..) (occupiedFlag_rsq ..)
  have pressed (k : Key) (p : Part) : p.SameMonitor (p.keypadEvent b k) :=
    of_keeps (.keypadEvent b k p) (keypadEvent_pmon ..) (keypadEvent_rsq ..)
  have noted : p.SameMonitor (match p.fm.node? b with
      | some r => p.occupiedFlag r.tag occupied
      | none => p) := by
    cases p.fm.node? b with
    | none => exact refl p
    | some r => exact flagged r.tag p
  unfold Part.tellLighting
  split
  · cases key with
    | none => exact noted
    | some k => exact noted.trans (pressed k _)
  · exact refl p
  · exact refl p

theorem fadeTick (p : Part) : p.SameMonitor p.fadeTick := by
  refine of_keeps (.fadeTick p) ?_ ?_ <;> unfold Part.fadeTick <;> split <;> simp

theorem vacancyExpiry (tag : Nat) (p : Part) : p.SameMonitor (p.vacancyExpiry tag) := by
  refine of_keeps (.vacancyExpiry tag p) ?_ ?_ <;> unfold Part.vacancyExpiry <;> split
  · split <;> simp
  · rfl
  · split <;> simp
  · rfl

theorem allocate (p : Part) : p.SameMonitor p.allocate := of_keeps (.allocate p) (allocate_pmon _) (allocate_rsq _)

/-- R126: a completed cutover, before the sequencer returns to IDLE. -/
theorem ended (cause : EndCause) (p : Part) :
    p.SameMonitor ((p.cutoverEnded cause).allocateIfRunning.mapCut fun c => { c with run := none }) := by
  obtain ⟨rs, eq, -⟩ := p.cutoverEnded_eq cause
  have first : p.SameMonitor (p.cutoverEnded cause) := by
    rw [eq]
    exact ⟨rfl, rfl, rfl⟩
  obtain ⟨pmon, -, rsq⟩ := (p.cutoverEnded cause).allocateIfRunning_blocks
  exact first.trans ((of_keeps (.allocateIfRunning _) pmon rsq).trans (mapCut _ _))

end Part.SameMonitor

/-- A condition on the floor state, the monitor and the sequencer, kept by each operation that writes them. -/
structure MonitorKept (I : Part → Prop) : Prop where
  same : ∀ {p q : Part}, p.SameMonitor q → I p → I q
  asked : ∀ {p : Part}, I p → I (p.mapRsq fun r => { r with requested := true })
  starts : ∀ {p : Part}, p.fm.state ≠ .unconfigured → I p → I p.startSolve
  seq : ∀ {p : Part} (x : SeqState), x ≠ .solving → I p → I (p.mapRsq fun r => { r with seq := x })
  dropped : ∀ {p : Part}, I p → I (p.mapRsq fun r => { r with seq := .idle, snapshot := none })
  flagged : ∀ {p : Part} (monitor : Monitor) (quiet : Timer) (owed auto : Bool) (qt : Nat), I p →
    I (p.mapPmon fun m => { m with monitor := monitor, quiet := quiet, owed := owed, auto := auto, qt := qt })
  rewritten : ∀ {p : Part} {e : Nat} {x : Edge} {g : Edge → Edge}, p.pmon.edge? e = some x → x.kind = .sensed → (g x).kind = .sensed →
    I p → I (p.rewriteEdge e g)
  forgotten : ∀ {p : Part} (e : Nat), I p → I (p.mapPmon (·.modifyEdge e fun x => { x with candidate := none }))
  surveyed : ∀ {p : Part}, SurveyEndsNext p → I p → I (p.mapFm fun f => { f with surveyRounds := f.surveyRounds + 1 }).endSurvey
  committed : ∀ {p : Part} {snap : Snapshot}, p.rsq.seq = .solving → p.rsq.snapshot = some snap → p.pmon.changed = false →
    snap.initial = false → I p → I (p.commit (p.solveInput snap.edges).plan snap.edges)
  initial : ∀ {p : Part} {snap : Snapshot}, p.rsq.seq = .solving → p.rsq.snapshot = some snap → p.pmon.changed = false →
    snap.initial = true → I p → I ((p.commit (p.solveInput snap.edges).plan snap.edges).handOff .block).enterRunning
  cold : ∀ n, I { Part.cold with fresh := n }
  warm : ∀ {p : Part}, I p → I p.warmRestart
  newFloor : ∀ {p : Part} {g : Grid} {bitmap : List Byte}, I p → I (p.setupFloor g bitmap)

namespace MonitorKept
variable {I : Part → Prop} (k : MonitorKept I) {p : Part}
include k

theorem eq {q : Part} (h : I p) (state : q.fm.state = p.fm.state) (pmon : q.pmon = p.pmon) (rsq : q.rsq = p.rsq) : I q :=
  k.same ⟨state, pmon, rsq⟩ h

/-! ### The sequencer -/

theorem notice (h : I p) : I p.notice := by
  unfold Part.notice
  split
  · next due => exact k.starts (by rw [due.1]; exact nofun) h
  · exact h

theorem decideAtIdle (h : I p) : I p.decideAtIdle := by
  unfold Part.decideAtIdle
  split
  · next due => exact k.starts (by rw [due.1]; exact nofun) h
  · exact h

theorem returnToIdle (h : I p) : I p.returnToIdle := k.decideAtIdle (k.seq .idle nofun h)

theorem discardSolve (h : I p) : I p.discardSolve := by
  have dropped : I ((p.mapRsq fun r => { r with seq := .idle, snapshot := none }).raise .solveDiscarded) :=
    k.eq (k.dropped h) rfl rfl rfl
  unfold Part.discardSolve
  dsimp only
  split
  · next survey => exact k.starts (by rw [survey]; exact nofun) dropped
  · exact k.decideAtIdle dropped
  · exact k.decideAtIdle dropped

/-! ### The cutover -/

theorem completeCutover (cause : EndCause) (h : I p) : I (p.completeCutover cause) := k.returnToIdle (k.same (.ended cause p) h)

theorem completeIfEmpty (cause : EndCause) (h : I p) : I (p.completeIfEmpty cause) := by
  unfold Part.completeIfEmpty
  split
  · exact k.completeCutover cause h
  · exact h

theorem cutRemaining (cause : EndCause) (h : I p) : I (p.cutRemaining cause) := k.completeIfEmpty cause (k.same (.cutBays _ p) h)

theorem cutVisited (b : Nat) (h : I p) : I (p.cutVisited b) := k.completeIfEmpty .paced (k.same (.cutBay b p) h)

theorem startCutover (pacing : Pacing) (listed : List Nat) (h : I p) : I (p.startCutover pacing listed) := by
  unfold Part.startCutover
  dsimp only
  split
  · exact k.cutRemaining .paced (k.same (.mapCut _ p) h)
  · exact k.same (.mapCut _ _) (k.seq .cutting nofun (k.same (.mapCut _ p) h))
  · exact k.completeIfEmpty .paced (k.same ((Part.SameMonitor.mapCut _ _).trans (.cutBays _ _)) (k.seq .cutting nofun (k.same (.mapCut _ p) h)))

theorem handOff (pacing : Pacing) (h : I p) : I (p.handOff pacing) := by
  unfold Part.handOff
  split
  · exact k.returnToIdle h
  · exact k.startCutover pacing _ h

theorem stepExpiry (h : I p) : I p.stepExpiry := by
  unfold Part.stepExpiry
  split
  · dsimp only
    split
    · exact k.completeCutover .paced (k.same (.cutBays _ p) h)
    · exact k.same ((Part.SameMonitor.cutBays _ p).trans (.mapCut _ _)) h
  · exact h

theorem deadlineExpiry (h : I p) : I p.deadlineExpiry := by
  have passed : I (p.mapCut fun c => { c with deadline := .passed }) := k.same (.mapCut _ p) h
  unfold Part.deadlineExpiry
  split
  · split
    · dsimp only
      split
      · exact k.cutRemaining .deadline passed
      · exact passed
      · exact passed
    · exact h
  · exact h
  · exact h

theorem switched (h : I p) : I p.switched := by
  unfold Part.switched
  split
  · exact k.cutRemaining .switch h
  · exact k.same (.mapCut _ p) h
  · have stopped : I (p.mapCut fun c => { c with stepTimer := .stopped }) := k.same (.mapCut _ p) h
    dsimp only
    split
    · exact k.cutRemaining .switch stopped
    · exact k.completeIfEmpty .switch (k.same (.cutBays _ _) stopped)

theorem setPacing (mode : Pacing) (interval limit : Nat) (h : I p) : I (p.setPacing mode interval limit) := by
  by_cases cutting : p.rsq.seq = .cutting
  · obtain ⟨d, n, -, eq⟩ := Part.setPacing_of_cutting mode interval limit cutting
    rw [eq]
    exact k.switched (k.eq h rfl rfl rfl)
  · rw [Part.setPacing_of_not_cutting mode interval limit cutting]
    exact k.same (.mapCut _ p) h

/-! ### The edges -/

theorem contact (e : Option Nat) (present : Bool) (h : I p) : I (p.contact e present) := by
  unfold Part.contact
  split
  · split
    · next x held =>
      split
      · next sensed =>
        refine k.rewritten held sensed ?_ h
        unfold Edge.contact
        dsimp only
        split_ifs <;> exact sensed
      · exact h
    · exact h
  · exact h

theorem contacts (b : Nat) (east south : Bool) (h : I p) : I (p.contacts b east south) := k.contact _ _ (k.contact _ _ h)

theorem clearCandidates (b : Nat) (h : I p) : I (p.clearCandidates b) := by
  have clear (e : Option Nat) {p : Part} (h : I p) : I (match e with
      | some e => p.mapPmon (·.modifyEdge e fun x => { x with candidate := none })
      | none => p) := by
    cases e with
    | none => exact h
    | some e => exact k.forgotten e h
  exact clear _ (clear _ h)

theorem applyOverrides (xs : List (Nat × Nat)) (h : I p) : I (p.applyOverrides xs).1 := by
  induction xs generalizing p with
  | nil => exact h
  | cons x xs ih =>
    unfold Part.applyOverrides
    by_cases good : p.GoodEntry x
    · rw [Part.badEntry_of_good good]
      obtain ⟨⟨y, held, sensed⟩, le⟩ := good
      refine ih ?_
      rw [Part.applyOverride_of_good ⟨⟨y, held, sensed⟩, le⟩]
      exact k.rewritten held sensed sensed h
    · rw [Part.badEntry_of_bad good]
      exact h

/-! ### Transactions -/

theorem failed (b : Nat) (cause : FailureCause) (h : I p) : I (p.failed b cause) := by
  unfold Part.failed
  split
  · split
    · split
      · exact k.same (.modifyNode b _ p) h
      · have told := k.clearCandidates b (p := (p.modifyNode b fun r =>
          { r with lastFailure := some cause, failures := 3, health := .silent }).raise (.nodeSilent b cause)) (k.eq h rfl rfl rfl)
        show I (Part.silentVisit b _)
        rw [Part.silentVisit_eq]
        split
        · exact k.cutVisited b told
        · exact told
    · exact k.same (.modifyNode b _ p) h
  · exact h

theorem validPoll (b : Nat) (reply : PollReply) (h : I p) : I (p.validPoll b reply) := by
  have polled : p.SameMonitor (p.polled b reply) :=
    .of_keeps (.polled b reply p) (by simp [Part.polled]) (by simp [Part.polled])
  have contacted := k.contacts b reply.east reply.south (k.same polled h)
  unfold Part.validPoll
  dsimp only
  rw [Part.vacantVisit_eq]
  have told (key : Option Key) : I (((p.polled b reply).contacts b reply.east reply.south).tellLighting b reply.inputs.occupied key) :=
    k.same (.tellLighting b _ key _) contacted
  split
  · exact k.cutVisited b (told _)
  · exact told _

/-! ### Every step -/

theorem arbitrate (h : I p) : I p.arbitrate := by
  obtain ⟨rounds, cbm, eq⟩ | ⟨ends, cbm, eq⟩ := p.arbitrate_cases <;> rw [eq]
  · exact k.eq h rfl rfl rfl
  · exact k.eq (k.surveyed ends h) rfl rfl rfl

theorem stepKept : StepKept I where
  link u h := k.eq h rfl rfl rfl
  wire bus slot h := k.eq h rfl rfl rfl
  grant h := k.arbitrate h
  round {p} h := by
    have same := p.completeRound.arbitrateAfterHold_sameButCbm
    rw [same]
    obtain ⟨rounds, cbm, eq⟩ | ⟨ends, cbm, eq⟩ := p.completeRound_cases <;> rw [eq]
    · exact k.eq h rfl rfl rfl
    · exact k.eq (k.surveyed ends h) rfl rfl rfl
  failed b cause h := k.failed b cause h
  polled b reply h := k.validPoll b reply h
  driven b sent h := by
    refine k.same ?_ h
    unfold Part.validDrive
    dsimp only
    split
    · split <;> exact ⟨rfl, rfl, rfl⟩
    · exact ⟨rfl, rfl, rfl⟩
  quiet {p} h := by
    unfold Part.quietExpiry
    split
    · exact k.notice (k.flagged .settled .stopped p.pmon.owed p.pmon.auto p.pmon.qt h)
    · exact h
  solved {p} h := by
    unfold Part.completeSolve
    split
    · next snap solving held =>
      by_cases changed : p.pmon.changed = true
      · rw [if_pos changed]
        exact k.discardSolve h
      · rw [if_neg changed]
        dsimp only
        have unchanged : p.pmon.changed = false := by simpa using changed
        by_cases initial : snap.initial = true
        · rw [if_pos initial]
          exact k.initial solving held unchanged initial h
        · rw [if_neg initial]
          exact k.handOff _ (k.committed solving held unchanged (Bool.eq_false_iff.2 initial) h)
    · exact h
  stepped h := k.stepExpiry h
  overdue h := k.deadlineExpiry h
  vacated {p} tag h := k.same (.vacancyExpiry tag p) h
  faded {p} h := k.same (.fadeTick p) h
  shared _ h := k.same (.allocate _) h
  ticked h := k.eq h rfl rfl rfl
  cold := k.cold
  warm := k.warm
  request {p q} effect h := by
    cases effect with
    | reads => exact h
    | draws => exact k.eq h rfl rfl rfl
    | setupFloor g bitmap considered valid =>
      have built := k.newFloor (g := g) (bitmap := bitmap) h
      unfold Part.kickBus
      split
      · exact k.arbitrate built
      all_goals exact built
    | takeRoles rl bays floor steady valid =>
      have written : I (p.mapFm fun f => { f with rl := rl, spine := spineOf bays }) := k.eq h rfl rfl rfl
      rw [Part.takeRoles_eq]
      split
      · exact k.notice (k.flagged .settled .stopped true p.pmon.auto p.pmon.qt written)
      · exact written
    | setAuto auto qt =>
      have written := k.flagged p.pmon.monitor p.pmon.quiet p.pmon.owed auto (clamp 5 600 qt) h
      unfold Part.setAuto
      dsimp only
      split
      · exact k.notice written
      · exact written
    | startSolve running idle => exact k.starts (by rw [running]; exact nofun) h
    | askSolve => exact k.asked h
    | setPacing mode interval limit => exact k.setPacing mode interval limit h
    | hasten => exact k.cutRemaining .hasten h
    | setSupply budget interval floor =>
      have written : I (p.supplied budget interval) := k.eq h rfl rfl rfl
      cases state : p.fm.state with
      | unconfigured => exact absurd state floor
      | survey => rwa [Part.setSupply_of_survey _ _ state]
      | running =>
        rw [Part.setSupply_of_running _ _ state]
        exact k.same (.allocate _) written
    | setZone tag requested => exact k.same (.of_keeps ((Part.Keeps.mapZt _ p).trans (.retargetZone tag _)) (by simp) (by simp)) h
    | overrides entries => exact k.applyOverrides entries h
    | pins pins => exact k.same (.mapZt _ p) h
    | mask mask => exact k.eq h rfl rfl rfl
    | owes o => exact k.eq h rfl rfl rfl

end MonitorKept

end Sys2Proof.Machine

/-!
The edges' effective states and the net change set, kept by every step (R3, R42, R47, R48, R55, R64).
-/
namespace Sys2Proof.Machine

/-! ### The commit's writing of the monitor and the sequencer (R52, R79) -/

theorem Part.retire_blocks (p : Part) (tag : Nat) :
    (p.retire tag).pmon = p.pmon ∧ (p.retire tag).rsq = p.rsq ∧ (p.retire tag).cut = p.cut ∧ (p.retire tag).fm = p.fm := by
  unfold retire
  split
  · split
    · rw [freeZone, raiseAll_pmon, raiseAll_rsq, raiseAll_cut, raiseAll_fm]
      exact ⟨rfl, rfl, rfl, rfl⟩
    · exact ⟨rfl, rfl, rfl, rfl⟩
  · exact ⟨rfl, rfl, rfl, rfl⟩

/-- R79, steps 1 to 3: the zones and bays of a commit. -/
def Part.zoned (plan : Plan) (p : Part) : Part :=
  let allocated := (p.zt.mapZones fun z => { z with parent := none }).allocateAll plan.admitted
  let q := plan.retiring.foldl Part.retire { p with zt := allocated.1 }
  ((q.mapFm (·.mapNodes (BayRec.planned plan allocated.2))).setCounts).mapZt
    (·.modifyZone 0 fun z => { z with foldedBays := plan.overflowBays })

/-- R83: the result of a commit. -/
def Part.solved (plan : Plan) (p : Part) : SolveResult := plan.result (p.zoned plan).fm.clock (p.zoned plan).movingBays.length

/-- R52, R79, R82: a commit writes the zones and bays, accepts the edges, puts the snapshot away and reports. -/
theorem Part.commit_eq (plan : Plan) (edges : List EdgeState) (p : Part) : p.commit plan edges =
    (((p.zoned plan).mapPmon (Pmon.accept edges)).mapRsq fun r => { r with snapshot := none, result := some (p.solved plan) }).raiseAll
      (commitReports plan (p.solved plan)) := by
  unfold commit commitReports
  dsimp only
  split <;> rfl

theorem Part.zoned_blocks (plan : Plan) (p : Part) :
    (p.zoned plan).pmon = p.pmon ∧ (p.zoned plan).rsq = p.rsq ∧ (p.zoned plan).cut = p.cut
      ∧ (p.zoned plan).fm = { p.fm with bays := (p.zoned plan).fm.bays } := by
  have retired (zt : Zt) : (plan.retiring.foldl retire { p with zt := zt }).fm = p.fm :=
    foldl_keeps retire (·.fm) (fun p t => (p.retire_blocks t).2.2.2) _ _
  refine ⟨?_, ?_, ?_, ?_⟩
  · exact foldl_keeps retire (·.pmon) (fun p t => (p.retire_blocks t).1) _ _
  · exact foldl_keeps retire (·.rsq) (fun p t => (p.retire_blocks t).2.1) _ _
  · exact foldl_keeps retire (·.cut) (fun p t => (p.retire_blocks t).2.2.1) _ _
  · exact congrArg (fun f : FloorModel => { f with bays := (p.zoned plan).fm.bays }) (retired _)

theorem Part.commit_monitor (plan : Plan) (edges : List EdgeState) (p : Part) :
    (p.commit plan edges).pmon = p.pmon.accept edges
      ∧ (p.commit plan edges).rsq = { p.rsq with snapshot := none, result := some (p.solved plan) } := by
  obtain ⟨pmon, rsq, -⟩ := p.zoned_blocks plan
  rw [commit_eq, raiseAll_pmon, raiseAll_rsq, mapRsq_pmon, mapPmon_pmon, mapRsq_rsq, mapPmon_rsq, pmon, rsq]
  exact ⟨rfl, rfl⟩

theorem Part.enterRunning_monitor (p : Part) : p.enterRunning.pmon = p.pmon ∧ p.enterRunning.rsq = p.rsq := by
  unfold enterRunning lightFloor
  simp

/-- The monitor of a BLOCK-paced hand-off: its cutovers are over within it. -/
theorem Part.handOff_block_pmon (p : Part) : ∃ changed, (p.handOff .block).pmon = { p.pmon with changed := changed } := by
  unfold handOff
  split
  · exact p.returnToIdle_pmon
  · obtain ⟨changed, pmon⟩ := (p.mapCut fun c => { c with
      list := p.movingBays, run := some ⟨p.fm.clock, p.movingBays.length, 0⟩ }).cutRemaining_pmon .paced
    exact ⟨changed, pmon⟩

/-- R63: before the floor is RUNNING no solve starts at a return to IDLE. -/
theorem Part.returnToIdle_of_not_running {p : Part} (floor : p.fm.state ≠ .running) :
    p.returnToIdle = p.mapRsq fun r => { r with seq := .idle } := if_neg fun both => floor both.1

theorem Part.handOff_block_of_not_running {p : Part} (floor : p.fm.state ≠ .running) :
    (p.handOff .block).pmon = p.pmon ∧ (p.handOff .block).rsq = { p.rsq with seq := .idle } := by
  unfold handOff
  split
  · rw [returnToIdle_of_not_running floor]
    exact ⟨rfl, rfl⟩
  · show ((p.mapCut _).cutRemaining .paced).pmon = _ ∧ ((p.mapCut _).cutRemaining .paced).rsq = _
    rw [cutRemaining_eq, completeCutover_eq]
    generalize cut : (p.mapCut fun c => { c with
      list := p.movingBays, run := some ⟨p.fm.clock, p.movingBays.length, 0⟩ }) = q
    have whole : p.SameMonitor ((((q.cutBays q.cut.list).cutoverEnded .paced).allocateIfRunning).mapCut fun c => { c with run := none }) := by
      have first : p.SameMonitor q := by
        rw [← cut]
        exact .mapCut _ p
      exact first.trans ((SameMonitor.cutBays _ q).trans (.ended .paced _))
    rw [returnToIdle_of_not_running (by rw [whole.state]; exact floor), mapRsq_pmon, mapRsq_rsq, whole.pmon, whole.rsq]
    exact ⟨rfl, rfl⟩

/-! ### The edges' effective states (R3, R42) -/

/-- R3, R42: what an edge's record keeps. -/
def Edge.Valid (x : Edge) : Prop :=
  (x.kind = .fixed → x = ⟨.fixed, .unknown, .walled, none, .none, .walled⟩) ∧ (x.kind = .sensed → x.effective = x.effectiveOf)

theorem edgesValid_iff (p : Part) : EdgesValid p ↔ ∀ x ∈ p.pmon.edges, x.Valid := Iff.rfl

theorem EdgesValid.of_edges {p q : Part} (h : EdgesValid p) (edges : q.pmon.edges = p.pmon.edges) : EdgesValid q := by
  rw [edgesValid_iff, edges]
  exact h

theorem Pmon.mem_modifyEdge {e : Nat} {g : Edge → Edge} {m : Pmon} {y : Edge} (mem : y ∈ (m.modifyEdge e g).edges) :
    y ∈ m.edges ∨ ∃ x ∈ m.edges, y = g x := by
  obtain ⟨i, at'⟩ := List.mem_iff_getElem?.1 mem
  rw [modifyEdge, mapFrom_getElem?, Option.map_eq_some_iff] at at'
  obtain ⟨x, held, eq⟩ := at'
  have member := List.mem_of_getElem? held
  split at eq
  · exact .inr ⟨x, member, eq.symm⟩
  · exact .inl (eq ▸ member)

theorem Edge.Valid.forgotten {x : Edge} (h : x.Valid) : ({ x with candidate := none } : Edge).Valid := by
  refine ⟨fun fixed => ?_, fun sensed => h.2 sensed⟩
  rw [h.1 fixed]

theorem Edge.Valid.settled {x : Edge} (h : x.Valid) : x.settleAtEnd.Valid := by
  unfold settleAtEnd
  split
  · next sensed => exact ⟨fun fixed => (by cases sensed.1.symm.trans fixed), fun _ => rfl⟩
  · exact h

theorem Edge.Valid.restarted {x : Edge} (h : x.Valid) : x.restarted.Valid := by
  rw [restarted_eq]
  split
  · next sensed => exact ⟨fun fixed => (by cases sensed.symm.trans fixed), fun _ => h.2 sensed⟩
  · exact h

theorem newEdge_valid (fixed : Bool) : (newEdge fixed).Valid := by
  cases fixed
  · exact ⟨nofun, fun _ => rfl⟩
  · exact ⟨fun _ => rfl, nofun⟩

theorem Part.rewriteEdge_edges {p : Part} {e : Nat} {x : Edge} (held : p.pmon.edge? e = some x) (g : Edge → Edge) :
    (p.rewriteEdge e g).pmon.edges = (p.pmon.modifyEdge e fun _ => x.rewritten g).edges := by
  rw [rewriteEdge_of_edge held]
  split
  · rfl
  · exact effectiveChange_edges ..

theorem edgesValid_kept : MonitorKept EdgesValid where
  same same h := h.of_edges (by rw [same.pmon])
  asked h := h
  starts _ h := h
  seq _ _ h := h
  dropped h := h
  flagged _ _ _ _ _ h := h
  rewritten {p e x g} held sensed kept h := by
    intro y mem
    rw [Part.rewriteEdge_edges held] at mem
    rcases Pmon.mem_modifyEdge mem with same | ⟨z, -, eq⟩
    · exact h y same
    · rw [eq]
      exact ⟨fun fixed => (by cases kept.symm.trans fixed), fun _ => rfl⟩
  forgotten e h := by
    intro y mem
    rcases Pmon.mem_modifyEdge mem with same | ⟨z, member, eq⟩
    · exact h y same
    · rw [eq]
      exact (show z.Valid from h z member).forgotten
  surveyed _ h := by
    intro y mem
    obtain ⟨x, member, rfl⟩ := List.mem_map.1 mem
    exact (show x.Valid from h x member).settled
  committed {p snap} _ _ _ _ h := h.of_edges (by rw [(p.commit_monitor _ _).1]; rfl)
  initial {p snap} _ _ _ _ h := by
    obtain ⟨changed, pmon⟩ := (p.commit (p.solveInput snap.edges).plan snap.edges).handOff_block_pmon
    refine h.of_edges ?_
    rw [(Part.enterRunning_monitor _).1, pmon, (p.commit_monitor _ _).1]
    rfl
  cold n := nofun
  warm {p} h := by
    intro y mem
    rw [Part.warmRestart_shape] at mem
    have mem : y ∈ (p.pmon.restarted p.fm.state (p.rsq.seq != .idle) p.fm.clock).edges := mem
    rw [Pmon.restarted_shape] at mem
    obtain ⟨x, member, rfl⟩ := List.mem_map.1 mem
    exact (show x.Valid from h x member).restarted
  newFloor {p g bitmap} h := by
    intro y mem
    obtain ⟨e, -, rfl⟩ := List.mem_map.1 (show y ∈ setupEdges g bitmap from mem)
    exact newEdge_valid _

/-! ### The net change set (R47, R48, R55, R64) -/

/-- R48: whether an edge's effective state differs from its baseline. -/
def Pmon.Differs (m : Pmon) (base : List EdgeState) (e : Nat) : Prop :=
  ∃ x, m.edge? e = some x ∧ x.effective ≠ base.getD (e - 1) .unknown

theorem Pmon.any_differs_iff (m : Pmon) (base : List EdgeState) (e : Nat) :
    ((m.edge? e).any fun x => x.effective != base.getD (e - 1) .unknown) = true ↔ m.Differs base e := by
  unfold Differs
  cases m.edge? e <;> simp

/-- R48: the net change set of a baseline. -/
def Pmon.netOf (m : Pmon) (base : List EdgeState) : List Nat :=
  (List.range' 1 m.edges.length).filter fun e => (m.edge? e).any fun x => x.effective != base.getD (e - 1) .unknown

theorem Pmon.netOf_sorted (m : Pmon) (base : List EdgeState) : (m.netOf base).Pairwise (· < ·) :=
  List.Pairwise.filter _ (List.pairwise_lt_range' ..)

theorem Pmon.mem_netOf (m : Pmon) (base : List EdgeState) (e : Nat) : e ∈ m.netOf base ↔ m.Differs base e := by
  rw [netOf, List.mem_filter, any_differs_iff, and_iff_right_iff_imp]
  rintro ⟨x, held, -⟩
  have there : ¬ (e = 0 ∨ m.edges.length < e) := by
    rw [← m.edge?_eq_none_iff, held]
    exact nofun
  rw [List.mem_range'_1]
  omega

theorem Pmon.edge?_effective (m : Pmon) (e : Nat) :
    (m.edge? e).map Edge.effective = if e = 0 then none else (m.edges.map Edge.effective)[e - 1]? := by
  unfold edge?
  split
  · rfl
  · exact (List.getElem?_map ..).symm

theorem Pmon.netOf_congr {m m' : Pmon} (effective : m'.edges.map Edge.effective = m.edges.map Edge.effective) (base : List EdgeState) :
    m'.netOf base = m.netOf base := by
  refine ascending_ext (m'.netOf_sorted base) (m.netOf_sorted base) fun e => ?_
  have differs (m : Pmon) : m.Differs base e ↔ ∃ v, (m.edge? e).map Edge.effective = some v ∧ v ≠ base.getD (e - 1) .unknown := by
    unfold Differs
    cases m.edge? e <;> simp
  rw [mem_netOf, mem_netOf, differs, differs, edge?_effective, edge?_effective, effective]

/-- R64: what a running solve's snapshot keeps. -/
def Snapshot.Holds (p : Part) (snap : Snapshot) : Prop :=
  p.rsq.seq = .solving → p.fm.state ≠ .unconfigured ∧ (snap.initial = true ↔ p.fm.state = .survey)
    ∧ (p.pmon.changed = false → snap.edges = p.pmon.edges.map Edge.effective)

theorem netChangeLaws_iff (p : Part) : NetChangeLaws p ↔
    (p.fm.state ≠ .running → p.pmon.baseline = none) ∧ (p.pmon.baseline = none → p.pmon.netChange = [])
      ∧ (∀ base ∈ p.pmon.baseline, p.pmon.netChange = p.pmon.netOf base) ∧ ∀ snap ∈ p.rsq.snapshot, Snapshot.Holds p snap := Iff.rfl

/-- The laws where the edges' effective states, the baseline and the set are the same. -/
theorem NetChangeLaws.of_same {p q : Part} (h : NetChangeLaws p) (state : q.fm.state = p.fm.state)
    (baseline : q.pmon.baseline = p.pmon.baseline) (netChange : q.pmon.netChange = p.pmon.netChange)
    (effective : q.pmon.edges.map Edge.effective = p.pmon.edges.map Edge.effective)
    (snapshot : ∀ snap ∈ q.rsq.snapshot, Snapshot.Holds q snap) : NetChangeLaws q := by
  obtain ⟨early, none, net, -⟩ := h
  rw [netChangeLaws_iff, state, baseline, netChange]
  refine ⟨early, none, fun base held => ?_, snapshot⟩
  rw [Pmon.netOf_congr effective]
  exact net base held

/-- The laws before the floor is RUNNING. -/
theorem netChangeLaws_of_no_baseline {p : Part} (baseline : p.pmon.baseline = none) (netChange : p.pmon.netChange = [])
    (snapshot : ∀ snap ∈ p.rsq.snapshot, Snapshot.Holds p snap) : NetChangeLaws p := by
  rw [netChangeLaws_iff, baseline]
  exact ⟨fun _ => rfl, fun _ => netChange, nofun, snapshot⟩

theorem Snapshot.holds_of_not_solving {p : Part} {snap : Snapshot} (idle : p.rsq.seq ≠ .solving) : Snapshot.Holds p snap :=
  fun solving => absurd solving idle

theorem Pmon.modifyEdge_effective {e : Nat} {g : Edge → Edge} {m : Pmon} (same : ∀ x, m.edge? e = some x → (g x).effective = x.effective) :
    (m.modifyEdge e g).edges.map Edge.effective = m.edges.map Edge.effective := by
  refine List.ext_getElem? fun i => ?_
  have at' := (m.modifyEdge e g).edge?_effective (i + 1)
  have was := m.edge?_effective (i + 1)
  rw [if_neg (by omega), Nat.add_sub_cancel] at at' was
  rw [← at', ← was, edge?_modifyEdge]
  split
  · next isEdge =>
    rw [isEdge]
    cases held : m.edge? e with
    | none => rfl
    | some x => exact congrArg some (same x held)
  · rfl

theorem Pmon.noteChange_sorted {e : Nat} {now : EdgeState} {m : Pmon} (sorted : m.netChange.Pairwise (· < ·)) :
    (m.noteChange e now).netChange.Pairwise (· < ·) := by
  unfold noteChange
  split
  · split
    · exact removeSet_sorted e sorted
    · exact insertSet_sorted e _ sorted
  · exact sorted

theorem Pmon.noteChange_of_no_baseline {e : Nat} {now : EdgeState} {m : Pmon} (baseline : m.baseline = none) : m.noteChange e now = m := by
  rw [noteChange, baseline]

/-- R48, R55: what an edge's rewriting does to the monitor beside the edge's record. -/
theorem Part.rewriteEdge_monitor {p : Part} {e : Nat} {x : Edge} (held : p.pmon.edge? e = some x) (g : Edge → Edge) :
    ∃ set monitor quiet changed, (p.rewriteEdge e g).pmon =
      { p.pmon.modifyEdge e fun _ => x.rewritten g with netChange := set, monitor := monitor, quiet := quiet, changed := changed }
      ∧ (p.pmon.netChange.Pairwise (· < ·) → set.Pairwise (· < ·)) ∧ (p.pmon.baseline = none → set = p.pmon.netChange)
      ∧ ((x.rewritten g).effective ≠ x.effective → p.rsq.seq = .solving → changed = true) ∧ (changed = false → p.pmon.changed = false) := by
  rw [rewriteEdge_of_edge held]
  split
  · next same => exact ⟨_, _, _, _, rfl, id, fun _ => rfl, fun differs => absurd same differs, id⟩
  · generalize marked : (p.pmon.modifyEdge e fun _ => x.rewritten g).sawChange (p.rsq.seq == .solving) = m
    have flag : (p.rsq.seq = .solving → m.changed = true) ∧ (m.changed = false → p.pmon.changed = false) := by
      rw [← marked]
      refine ⟨fun solving => ?_, fun unset => ?_⟩
      · show (p.pmon.changed || p.rsq.seq == .solving) = true
        rw [solving]
        exact Bool.or_true _
      · exact (Bool.or_eq_false_iff.1 unset).1
    have was : m.netChange = p.pmon.netChange ∧ m.baseline = p.pmon.baseline := by rw [← marked]; exact ⟨rfl, rfl⟩
    have shape : m = { p.pmon.modifyEdge e fun _ => x.rewritten g with changed := m.changed } := by rw [← marked]; rfl
    have moved : ((p.mapPmon (·.modifyEdge e fun _ => x.rewritten g)).effectiveChange e (x.rewritten g).effective).pmon
        = if p.fm.state = .running then (m.noteChange e (x.rewritten g).effective).stir p.fm.clock else m := by
      rw [effectiveChange_eq, ← marked]
      rfl
    rw [moved]
    split
    · obtain ⟨set, noted⟩ := m.noteChange_shape e (x.rewritten g).effective
      obtain ⟨monitor, quiet, stirred⟩ := (m.noteChange e (x.rewritten g).effective).stir_shape p.fm.clock
      have isSet : (m.noteChange e (x.rewritten g).effective).netChange = set := by rw [noted]
      refine ⟨set, monitor, quiet, m.changed, ?_, fun sorted => ?_, fun baseline => ?_, fun _ => flag.1, flag.2⟩
      · rw [stirred, noted, shape]
      · rw [← isSet]
        exact Pmon.noteChange_sorted (by rw [was.1]; exact sorted)
      · rw [← isSet, Pmon.noteChange_of_no_baseline (was.2.trans baseline), was.1]
    · exact ⟨_, _, _, _, shape, id, fun _ => rfl, fun _ => flag.1, flag.2⟩

/-- R48: an effective change of an edge, where the floor is RUNNING on a baseline. -/
theorem Part.rewriteEdge_netOf {p : Part} {e : Nat} {x : Edge} {base : List EdgeState} (held : p.pmon.edge? e = some x)
    (running : p.fm.state = .running) (baseline : p.pmon.baseline = some base) (net : p.pmon.netChange = p.pmon.netOf base) (g : Edge → Edge) :
    (p.rewriteEdge e g).pmon.netChange = (p.rewriteEdge e g).pmon.netOf base := by
  have sorted : (p.rewriteEdge e g).pmon.netChange.Pairwise (· < ·) := by
    obtain ⟨set, monitor, quiet, changed, eq, keeps, -⟩ := rewriteEdge_monitor held g
    rw [eq]
    exact keeps (by rw [net]; exact Pmon.netOf_sorted ..)
  refine ascending_ext sorted (Pmon.netOf_sorted ..) fun i => ?_
  rw [rewriteEdge_netChange held running baseline, Pmon.mem_netOf, net, Pmon.mem_netOf]
  unfold Pmon.Differs
  rw [rewriteEdge_edge?, held]
  by_cases isEdge : i = e
  · subst isEdge
    rw [if_pos rfl, Option.map_some, held]
    by_cases changes : (x.rewritten g).effective = x.effective
    · rw [if_neg fun both => both.2 changes]
      simp [changes]
    · rw [if_pos ⟨rfl, changes⟩]
      simp [eq_comm]
  · rw [if_neg fun both => isEdge both.1, if_neg isEdge]

/-- R48, R55: an edge's rewriting. -/
theorem NetChangeLaws.rewriteEdge {p : Part} {e : Nat} {x : Edge} (h : NetChangeLaws p) (held : p.pmon.edge? e = some x) (g : Edge → Edge) :
    NetChangeLaws (p.rewriteEdge e g) := by
  obtain ⟨early, none, net, snapshots⟩ := (netChangeLaws_iff p).1 h
  have frame := p.rewriteEdge_shape e g
  have state : (p.rewriteEdge e g).fm = p.fm := by rw [frame]
  have rsq : (p.rewriteEdge e g).rsq = p.rsq := by rw [frame]
  have baseline := p.rewriteEdge_baseline e g
  obtain ⟨set, monitor, quiet, changed, pmon, -, unmoved, marks, clears⟩ := Part.rewriteEdge_monitor held g
  rw [netChangeLaws_iff, state, baseline, rsq]
  refine ⟨early, fun noBase => ?_, fun base isBase => ?_, fun snap isSnap => ?_⟩
  · rw [pmon]
    exact (unmoved noBase).trans (none noBase)
  · have running : p.fm.state = .running := by
      by_contra notRunning
      rw [early notRunning] at isBase
      cases isBase
    exact Part.rewriteEdge_netOf held running isBase (net base isBase) g
  · intro solving
    rw [rsq] at solving
    obtain ⟨floor, initial, edges⟩ := snapshots snap isSnap solving
    rw [state]
    refine ⟨floor, initial, fun unchanged => ?_⟩
    rw [pmon] at unchanged ⊢
    have same : (x.rewritten g).effective = x.effective := by
      by_contra differs
      cases (marks differs solving).symm.trans unchanged
    rw [edges (clears unchanged)]
    refine (Pmon.modifyEdge_effective fun y held' => ?_).symm
    rw [held] at held'
    cases held'
    exact same

theorem Edge.restarted_effective (x : Edge) : x.restarted.effective = x.effective := by
  rw [restarted_eq]
  split <;> rfl

theorem Pmon.netOf_own (m : Pmon) : m.netOf (m.edges.map Edge.effective) = [] := by
  rw [List.eq_nil_iff_forall_not_mem]
  intro e mem
  obtain ⟨x, held, differs⟩ := (m.mem_netOf _ e).1 mem
  have own := m.edge?_effective e
  rw [held] at own
  by_cases zero : e = 0
  · rw [if_pos zero] at own
    cases own
  · rw [if_neg zero] at own
    rw [List.getD_eq_getElem?_getD, ← own] at differs
    exact differs rfl

/-- R52: the laws when a solve's edges have just become the baseline. -/
theorem netChangeLaws_of_accepted {p : Part} (running : p.fm.state = .running)
    (baseline : p.pmon.baseline = some (p.pmon.edges.map Edge.effective)) (netChange : p.pmon.netChange = [])
    (snapshot : p.rsq.snapshot = none) : NetChangeLaws p := by
  rw [netChangeLaws_iff, baseline, snapshot]
  refine ⟨fun notRunning => absurd running notRunning, nofun, fun base isBase => ?_, nofun⟩
  cases isBase
  rw [netChange, Pmon.netOf_own]

theorem netChangeLaws_kept : MonitorKept NetChangeLaws where
  same {p q} same h := by
    obtain ⟨-, -, -, snapshots⟩ := (netChangeLaws_iff p).1 h
    refine h.of_same same.state (by rw [same.pmon]) (by rw [same.pmon]) (by rw [same.pmon]) ?_
    unfold Snapshot.Holds
    rw [same.state, same.pmon, same.rsq]
    exact snapshots
  asked h := h
  starts {p} floor h := h.of_same rfl rfl rfl rfl fun snap isSnap => by
    cases isSnap
    exact fun _ => ⟨floor, beq_iff_eq, fun _ => rfl⟩
  seq x notSolving h := h.of_same rfl rfl rfl rfl fun snap _ => Snapshot.holds_of_not_solving notSolving
  dropped h := h.of_same rfl rfl rfl rfl fun snap _ => Snapshot.holds_of_not_solving nofun
  flagged _ _ _ _ _ h := h
  rewritten held _ _ h := h.rewriteEdge held _
  forgotten {p} e h := by
    obtain ⟨-, -, -, snapshots⟩ := (netChangeLaws_iff p).1 h
    have effective : (p.pmon.modifyEdge e fun x => { x with candidate := none }).edges.map Edge.effective = p.pmon.edges.map Edge.effective :=
      Pmon.modifyEdge_effective fun _ _ => rfl
    refine h.of_same rfl rfl rfl effective fun snap isSnap => ?_
    unfold Snapshot.Holds
    rw [Part.mapPmon_pmon, effective]
    exact snapshots snap isSnap
  surveyed {p} ends h := by
    obtain ⟨survey, -⟩ := ends
    obtain ⟨early, none, -, -⟩ := (netChangeLaws_iff p).1 h
    have baseline : p.pmon.baseline = Option.none := early (by rw [survey]; exact nofun)
    refine netChangeLaws_of_no_baseline baseline (none baseline) fun snap isSnap => ?_
    cases isSnap
    exact fun _ => ⟨by show p.fm.state ≠ _; rw [survey]; exact nofun, beq_iff_eq, fun _ => rfl⟩
  committed {p snap} solving held unchanged later h := by
    obtain ⟨-, -, -, snapshots⟩ := (netChangeLaws_iff p).1 h
    obtain ⟨floor, initial, edges⟩ := snapshots snap held solving
    obtain ⟨pmon, rsq⟩ := p.commit_monitor (p.solveInput snap.edges).plan snap.edges
    have running : p.fm.state = .running := by
      cases state : p.fm.state with
      | running => rfl
      | survey => rw [initial.2 state] at later; cases later
      | unconfigured => exact absurd state floor
    refine netChangeLaws_of_accepted ((Part.Keeps.commit _ _ p).state.trans running) ?_ ?_ ?_
    · rw [pmon, edges unchanged]
      rfl
    · rw [pmon]
      rfl
    · rw [rsq]
  initial {p snap} solving held unchanged first h := by
    obtain ⟨-, -, -, snapshots⟩ := (netChangeLaws_iff p).1 h
    obtain ⟨-, initial, edges⟩ := snapshots snap held solving
    have survey : p.fm.state = .survey := initial.1 first
    obtain ⟨pmon, rsq⟩ := p.commit_monitor (p.solveInput snap.edges).plan snap.edges
    have notRunning : (p.commit (p.solveInput snap.edges).plan snap.edges).fm.state ≠ .running := by
      rw [(Part.Keeps.commit _ _ p).state, survey]
      exact nofun
    obtain ⟨pmon', rsq'⟩ := Part.handOff_block_of_not_running notRunning
    obtain ⟨pmon'', rsq''⟩ := ((p.commit (p.solveInput snap.edges).plan snap.edges).handOff .block).enterRunning_monitor
    refine netChangeLaws_of_accepted rfl ?_ ?_ ?_
    · rw [pmon'', pmon', pmon, edges unchanged]
      rfl
    · rw [pmon'', pmon', pmon]
      rfl
    · rw [rsq'', rsq', rsq]
  cold n := netChangeLaws_of_no_baseline rfl rfl nofun
  warm {p} h := by
    have monitor : p.restarted.pmon = p.pmon.restarted p.fm.state (p.rsq.seq != .idle) p.fm.clock := rfl
    rw [Pmon.restarted_shape] at monitor
    have effective : p.restarted.pmon.edges.map Edge.effective = p.pmon.edges.map Edge.effective := by
      rw [monitor, List.map_map]
      exact List.map_congr_left fun x _ => x.restarted_effective
    have state : p.restarted.retargetRunning.fm.state = p.fm.state := by
      rw [Part.retargetRunning_frame]
      exact FloorModel.restarted_state p.fm
    rw [Part.warmRestart_shape]
    refine h.of_same state (by rw [monitor]) (by rw [monitor]) effective fun snap isSnap => ?_
    dsimp only at isSnap
    by_cases solves : p.restartSolves = true
    · rw [if_pos solves] at isSnap
      cases isSnap
      have running := (p.restartSolves_iff.1 solves).1.1
      unfold Snapshot.Holds
      dsimp only
      rw [state, running]
      exact fun _ => ⟨nofun, ⟨nofun, nofun⟩, fun _ => rfl⟩
    · rw [if_neg solves] at isSnap
      cases isSnap
  newFloor {p g bitmap} h := netChangeLaws_of_no_baseline rfl rfl nofun

/-- Settles O58: each of the four conditions is kept by each operation that writes what it speaks of. -/
theorem stepKeepsParametersAndEdges : Obligations.StepKeepsParametersAndEdges := by
  unfold Obligations.StepKeepsParametersAndEdges
  have kept {I : Part → Prop} (k : StepKept I) (s t : State) (h : I s.part) (runs : step s = .next t) : I t.part :=
    step_keeps k.effect s t h runs
  exact ⟨kept parameterRanges_frameKept.stepKept, kept edgesValid_kept.stepKept, kept netChangeLaws_kept.stepKept,
    kept pendingLaws_frameKept.stepKept⟩

end Sys2Proof.Machine

/-!
The solver's matching (R69 to R76): the best of a list, the ranking, and what a plan does with each component.
-/
namespace Sys2Proof.Machine

/-! ### The best of a list and the ranking of a list -/

theorem bestBy_best {α : Type} {score rank : α → Nat} {l : List α} {a : α} (best : bestBy score rank l = some a) :
    a ∈ l ∧ ∀ b ∈ l, score b ≤ score a ∧ (score b = score a → rank a ≤ rank b) := by
  induction l generalizing a with
  | nil => cases best
  | cons x xs ih =>
    unfold bestBy at best
    cases rest : bestBy score rank xs with
    | none =>
      rw [rest] at best
      cases xs with
      | nil => cases best; simp
      | cons y ys =>
        unfold bestBy at rest
        split at rest
        · cases rest
        · split at rest <;> cases rest
    | some b =>
      rw [rest] at best
      obtain ⟨mem, top⟩ := ih rest
      dsimp only at best
      split at best
      · next ahead =>
        cases best
        simp only [Bool.or_eq_true, decide_eq_true_eq, Bool.and_eq_true, beq_iff_eq] at ahead
        refine ⟨List.mem_cons_self, List.forall_mem_cons.2 ⟨⟨le_rfl, fun _ => le_rfl⟩, fun y held => ?_⟩⟩
        have := top y held
        omega
      · next behind =>
        cases best
        simp only [Bool.or_eq_true, decide_eq_true_eq, Bool.and_eq_true, beq_iff_eq] at behind
        refine ⟨List.mem_cons_of_mem _ mem, List.forall_mem_cons.2 ⟨?_, top⟩⟩
        omega

theorem bestBy_isSome {α : Type} (score rank : α → Nat) {l : List α} {a : α} (mem : a ∈ l) :
    ∃ b, bestBy score rank l = some b := by
  cases l with
  | nil => cases mem
  | cons x xs =>
    unfold bestBy
    split
    · exact ⟨_, rfl⟩
    · split <;> exact ⟨_, rfl⟩

/-- The best is the one member that no other beats, where the ranks tell the members apart. -/
theorem bestBy_eq_some_iff {α : Type} {score rank : α → Nat} {l : List α} {a : α}
    (apart : ∀ b ∈ l, rank b = rank a → b = a) :
    bestBy score rank l = some a ↔ a ∈ l ∧ ∀ b ∈ l, score b ≤ score a ∧ (score b = score a → rank a ≤ rank b) := by
  refine ⟨bestBy_best, fun ⟨mem, top⟩ => ?_⟩
  obtain ⟨b, best⟩ := bestBy_isSome score rank mem
  obtain ⟨memB, topB⟩ := bestBy_best best
  have aLow := top b memB
  have bLow := topB a mem
  rw [best, apart b memB (by omega)]

theorem insertBefore_eq {α : Type} (before : α → α → Bool) (a : α) (l : List α) :
    insertBefore before a l = l.orderedInsert (before · ·) a := by
  induction l with
  | nil => rfl
  | cons b bs ih => rw [insertBefore, List.orderedInsert_cons, ih]

theorem sortBy_eq {α : Type} (before : α → α → Bool) (l : List α) : sortBy before l = l.insertionSort (before · ·) := by
  induction l with
  | nil => rfl
  | cons a as ih => rw [sortBy, List.insertionSort_cons, insertBefore_eq, ih]

theorem sortBy_perm {α : Type} (before : α → α → Bool) (l : List α) : (sortBy before l).Perm l := by
  rw [sortBy_eq]
  exact List.perm_insertionSort _ l

theorem ranksBefore_iff (a b : Component) : ranksBefore a b = true ↔ b.size < a.size ∨ (a.size = b.size ∧ a.key ≤ b.key) := by
  simp [ranksBefore]

/-- R74: components of distinct keys, ranked. -/
theorem ranked {l : List Component} (distinct : (l.map Component.key).Nodup) :
    (sortBy ranksBefore l).Pairwise fun a b => b.size < a.size ∨ (b.size = a.size ∧ a.key < b.key) := by
  have total : Std.Total (α := Component) (ranksBefore · ·) := ⟨fun a b => by simp only [ranksBefore_iff]; omega⟩
  have trans : IsTrans Component (ranksBefore · ·) := ⟨fun a b c => by simp only [ranksBefore_iff]; omega⟩
  have order : (sortBy ranksBefore l).Pairwise (ranksBefore · ·) := by
    rw [sortBy_eq]
    exact List.pairwise_insertionSort _ l
  have apart : ((sortBy ranksBefore l).map Component.key).Nodup := ((sortBy_perm ranksBefore l).map _).nodup_iff.2 distinct
  refine (order.and (List.pairwise_map.1 apart)).imp fun {a b} ⟨before, ne⟩ => ?_
  have := (ranksBefore_iff a b).1 before
  omega

/-! ### Components apart -/

theorem SolveInput.key_mem {i : SolveInput} {c : Component} (mem : c ∈ i.components) : c.key ∈ c.bays := by
  obtain ⟨k, roomable, own, rfl⟩ := (i.mem_components c).1 mem
  exact (i.mem_componentOf k k).2 ⟨roomable, own⟩

theorem SolveInput.bays_of_component {i : SolveInput} {c : Component} (mem : c ∈ i.components) {b : Nat} (inside : b ∈ c.bays) :
    b ∈ i.bays ∧ i.label b = c.key := by
  obtain ⟨k, -, -, rfl⟩ := (i.mem_components c).1 mem
  exact (i.mem_componentOf k b).1 inside

theorem SolveInput.component_ext {i : SolveInput} {c d : Component} (memC : c ∈ i.components) (memD : d ∈ i.components)
    (same : c.key = d.key) : c = d := by
  obtain ⟨k, -, -, rfl⟩ := (i.mem_components c).1 memC
  obtain ⟨l, -, -, rfl⟩ := (i.mem_components d).1 memD
  cases (show k = l from same)
  rfl

/-- Components share no bay. -/
theorem SolveInput.component_eq_of_bay {i : SolveInput} {c d : Component} (memC : c ∈ i.components) (memD : d ∈ i.components)
    {b : Nat} (inC : b ∈ c.bays) (inD : b ∈ d.bays) : c = d :=
  component_ext memC memD ((bays_of_component memC inC).2.symm.trans (bays_of_component memD inD).2)

theorem SolveInput.components_keys_nodup {i : SolveInput} (ascending : i.bays.Pairwise (· < ·)) :
    (i.components.map Component.key).Nodup := by
  rw [components_keys]
  exact (ascending.imp fun lt => Nat.ne_of_lt lt).filter _

/-! ### Overlaps -/

theorem SolveInput.overlap_pos {i : SolveInput} {c : Component} {z : Nat} : 0 < i.overlap c z ↔ ∃ b ∈ c.bays, i.tag b = some z := by
  simp [overlap, List.length_pos_iff_exists_mem]

/-- R76: a component's parent is the tag it overlaps most, and it overlaps it. -/
theorem SolveInput.parent_best {i : SolveInput} {c : Component} (mem : c ∈ i.components) :
    0 < i.overlap c (i.parent c)
      ∧ ∀ z, i.overlap c z ≤ i.overlap c (i.parent c) ∧ (i.overlap c z = i.overlap c (i.parent c) → i.parent c ≤ z) := by
  have tags (z : Nat) : z ∈ c.bays.filterMap i.tag ↔ 0 < i.overlap c z := by rw [List.mem_filterMap, overlap_pos]
  obtain ⟨own, tagged⟩ := Option.isSome_iff_exists.1 ((i.tag_isSome c.key).2 (bays_of_component mem (key_mem mem)).1)
  obtain ⟨best, found⟩ := bestBy_isSome (i.overlap c) id (List.mem_filterMap.2 ⟨c.key, key_mem mem, tagged⟩)
  have parent : i.parent c = best := by rw [SolveInput.parent, found, Option.getD_some]
  obtain ⟨held, top⟩ := bestBy_best found
  have positive := (tags best).1 held
  rw [parent]
  refine ⟨positive, fun z => ?_⟩
  by_cases overlapped : 0 < i.overlap c z
  · exact top z ((tags z).2 overlapped)
  · omega

/-! ### The parts of a plan -/

/-- The room components of a solve. -/
def SolveInput.rooms (i : SolveInput) : List Component := i.components.filter fun c => !i.isFloor c

/-- The born components, ranked. -/
def SolveInput.born (i : SolveInput) : List Component := sortBy ranksBefore (i.rooms.filter fun c => (i.continues i.rooms c).isNone)

theorem SolveInput.isFloor_iff {i : SolveInput} {c : Component} :
    i.isFloor c = true ↔ (∃ b ∈ c.bays, b ∈ i.spine) ∨ i.rl < c.bays.length := by
  rw [isFloor, Bool.or_eq_true, decide_eq_true_eq, List.any_eq_true]
  simp only [decide_eq_true_eq]
  exact .rfl

theorem SolveInput.mem_rooms {i : SolveInput} {c : Component} :
    c ∈ i.rooms ↔ c ∈ i.components ∧ ¬ ((∃ b ∈ c.bays, b ∈ i.spine) ∨ i.rl < c.bays.length) := by
  rw [rooms, List.mem_filter, ← isFloor_iff]
  simp

theorem SolveInput.plan_kept (i : SolveInput) :
    i.plan.kept = i.rooms.filterMap fun c => (i.continues i.rooms c).map fun z => (c, z) := rfl

theorem SolveInput.plan_admitted (i : SolveInput) :
    i.plan.admitted = (i.born.take (places i.plan.kept.length i.zones.length)).map fun c => (c, i.parent c) := rfl

theorem SolveInput.plan_overflowing (i : SolveInput) :
    i.plan.overflowing = i.born.drop (places i.plan.kept.length i.zones.length) := rfl

theorem SolveInput.plan_retiring (i : SolveInput) :
    i.plan.retiring = i.zones.filter fun z => !(i.plan.kept.any fun k => k.2 == z) := rfl

theorem SolveInput.plan_born (i : SolveInput) : i.plan.admitted.map Prod.fst ++ i.plan.overflowing = i.born := by
  rw [plan_admitted, plan_overflowing, List.map_map]
  have whole := List.take_append_drop (places i.plan.kept.length i.zones.length) i.born
  exact (congrArg (· ++ _) (List.map_id _)).trans whole

theorem SolveInput.mem_kept {i : SolveInput} {c : Component} {z : Nat} :
    (c, z) ∈ i.plan.kept ↔ c ∈ i.rooms ∧ i.continues i.rooms c = some z := by
  simp [plan_kept]

theorem SolveInput.mem_born {i : SolveInput} {c : Component} : c ∈ i.born ↔ c ∈ i.rooms ∧ ∀ z, (c, z) ∉ i.plan.kept := by
  simp only [born, mem_sortBy, List.mem_filter, mem_kept, Option.isNone_iff_eq_none, Option.eq_none_iff_forall_ne_some, not_and]
  exact ⟨fun ⟨room, free⟩ => ⟨room, fun z _ => free z⟩, fun ⟨room, free⟩ => ⟨room, fun z => free z room⟩⟩

theorem SolveInput.bestZone_eq_some_iff {i : SolveInput} {c : Component} {z : Nat} :
    i.bestZone c = some z ↔ z ∈ i.zones ∧ 0 < i.overlap c z
      ∧ ∀ z' ∈ i.zones, i.overlap c z' ≤ i.overlap c z ∧ (i.overlap c z' = i.overlap c z → z ≤ z') := by
  rw [bestZone, bestBy_eq_some_iff (rank := id) fun _ _ same => same]
  simp only [List.mem_filter, decide_eq_true_eq, and_assoc, id_eq]
  refine and_congr_right fun _ => and_congr_right fun positive => ⟨fun top z' mem => ?_, fun top z' mem => top z' mem.1⟩
  by_cases overlapped : 0 < i.overlap c z'
  · exact top z' ⟨mem, overlapped⟩
  · omega

theorem SolveInput.bestComponent_eq_some_iff {i : SolveInput} {z : Nat} {c : Component} (room : c ∈ i.rooms) :
    i.bestComponent i.rooms z = some c ↔ 0 < i.overlap c z
      ∧ ∀ c' ∈ i.rooms, i.overlap c' z ≤ i.overlap c z ∧ (i.overlap c' z = i.overlap c z → c.key ≤ c'.key) := by
  have isComponent := (mem_rooms.1 room).1
  rw [bestComponent, bestBy_eq_some_iff fun d mem same =>
    component_ext (mem_rooms.1 (List.mem_of_mem_filter mem)).1 isComponent same]
  simp only [List.mem_filter, decide_eq_true_eq, room, true_and]
  refine and_congr_right fun positive => ⟨fun top c' mem => ?_, fun top c' mem => top c' mem.1⟩
  by_cases overlapped : 0 < i.overlap c' z
  · exact top c' ⟨mem, overlapped⟩
  · omega

/-- R73: mutual choice. -/
theorem SolveInput.continues_eq_some_iff {i : SolveInput} {c : Component} {z : Nat} (room : c ∈ i.rooms) :
    i.continues i.rooms c = some z ↔ i.bestZone c = some z ∧ i.bestComponent i.rooms z = some c := by
  rw [continues, Option.filter_eq_some_iff, beq_iff_eq, Option.map_eq_some_iff]
  refine and_congr_right fun _ => ⟨fun ⟨d, best, same⟩ => ?_, fun best => ⟨c, best, rfl⟩⟩
  have memD : d ∈ i.rooms := List.mem_of_mem_filter (bestBy_best best).1
  rw [best, component_ext (mem_rooms.1 memD).1 (mem_rooms.1 room).1 same]

/-- R73: a zone is continued by one component at most. -/
theorem SolveInput.kept_component {i : SolveInput} {c d : Component} {z : Nat} (left : (c, z) ∈ i.plan.kept)
    (right : (d, z) ∈ i.plan.kept) : c = d := by
  obtain ⟨roomC, contC⟩ := mem_kept.1 left
  obtain ⟨roomD, contD⟩ := mem_kept.1 right
  have bestC := ((continues_eq_some_iff roomC).1 contC).2
  have bestD := ((continues_eq_some_iff roomD).1 contD).2
  exact Option.some.inj (bestC.symm.trans bestD)

theorem SolveInput.rooms_keys_nodup {i : SolveInput} (ascending : i.bays.Pairwise (· < ·)) : (i.rooms.map Component.key).Nodup :=
  (components_keys_nodup ascending).sublist (List.filter_sublist.map _)

theorem SolveInput.kept_nodup {i : SolveInput} (ascending : i.bays.Pairwise (· < ·)) : (i.plan.kept.map Prod.snd).Nodup := by
  have apart : i.rooms.Pairwise (· ≠ ·) := (List.pairwise_map.1 (rooms_keys_nodup ascending)).imp fun ne same => ne (congrArg Component.key same)
  refine List.pairwise_map.2 ?_
  rw [plan_kept, List.pairwise_filterMap]
  refine apart.imp_of_mem fun {c d} roomC roomD ne => ?_
  rintro ⟨c', z⟩ keptC ⟨d', z'⟩ keptD (same : z = z')
  obtain ⟨_, contC, eqC⟩ := Option.map_eq_some_iff.1 keptC
  obtain ⟨_, contD, eqD⟩ := Option.map_eq_some_iff.1 keptD
  cases eqC; cases eqD; cases same
  exact ne (kept_component (mem_kept.2 ⟨roomC, contC⟩) (mem_kept.2 ⟨roomD, contD⟩))

theorem SolveInput.mem_retiring {i : SolveInput} {z : Nat} : z ∈ i.plan.retiring ↔ z ∈ i.zones ∧ z ∉ i.plan.kept.map Prod.snd := by
  rw [plan_retiring, List.mem_filter, Bool.not_eq_true', List.any_eq_false, List.mem_map]
  simp only [beq_iff_eq, not_exists, not_and]

theorem SolveInput.born_ranked {i : SolveInput} (ascending : i.bays.Pairwise (· < ·)) :
    i.born.Pairwise fun a b => b.size < a.size ∨ (b.size = a.size ∧ a.key < b.key) :=
  ranked ((rooms_keys_nodup ascending).sublist (List.filter_sublist.map _))

theorem SolveInput.admitted_length (i : SolveInput) :
    i.plan.admitted.length = min i.born.length (places i.plan.kept.length i.zones.length) := by
  rw [plan_admitted, List.length_map, List.length_take, Nat.min_comm]

theorem SolveInput.mem_admitted {i : SolveInput} {a : Component × Nat} (mem : a ∈ i.plan.admitted) :
    a.1 ∈ i.born ∧ a.2 = i.parent a.1 := by
  rw [plan_admitted] at mem
  obtain ⟨c, taken, rfl⟩ := List.mem_map.1 mem
  exact ⟨List.mem_of_mem_take taken, rfl⟩

theorem SolveInput.component_of_born {i : SolveInput} {c : Component} (mem : c ∈ i.born) : c ∈ i.components :=
  (mem_rooms.1 (mem_born.1 mem).1).1

/-- Settles O49: rooms are matched with zones by mutual best, which for distinct keys is one component a zone. -/
theorem eachZoneContinuesOnce : Obligations.EachZoneContinuesOnce := by
  unfold Obligations.EachZoneContinuesOnce
  intro i ascending isFloor isRoom overlap bestZone bestRoom born
  have isRoom_iff (c : Component) : isRoom c ↔ c ∈ i.rooms := SolveInput.mem_rooms.symm
  have born_eq : born = i.born := i.plan_born
  rw [born_eq]
  refine ⟨SolveInput.kept_nodup ascending, ?_, fun _ => SolveInput.mem_retiring, ?_, ?_, ?_, ?_,
    SolveInput.born_ranked ascending, i.admitted_length, fun a mem => ?_, fun b => ?_, rfl⟩
  · rintro ⟨c, z⟩ mem
    obtain ⟨room, continued⟩ := SolveInput.mem_kept.1 mem
    obtain ⟨held, positive, -⟩ := SolveInput.bestZone_eq_some_iff.1 ((SolveInput.continues_eq_some_iff room).1 continued).1
    exact ⟨held, SolveInput.overlap_pos.1 positive⟩
  · rw [i.admitted_length, places]
    omega
  · intro c
    exact List.mem_filter.trans (and_congr_right fun _ => SolveInput.isFloor_iff)
  · intro c z
    rw [SolveInput.mem_kept, isRoom_iff]
    refine and_congr_right fun room => ?_
    rw [SolveInput.continues_eq_some_iff room, SolveInput.bestZone_eq_some_iff, SolveInput.bestComponent_eq_some_iff room]
    refine and_congr_right fun _ => ?_
    simp only [bestRoom, isRoom_iff, room, true_and]
    exact .rfl
  · intro c
    rw [SolveInput.mem_born, isRoom_iff]
  · obtain ⟨inBorn, parent⟩ := SolveInput.mem_admitted mem
    rw [parent]
    exact SolveInput.parent_best (SolveInput.component_of_born inBorn)
  · simp [Plan.isFolded]

end Sys2Proof.Machine

/-!
What a commit plans for the bays of one component (R69, R77), and that the hand-off carries it through.
-/
namespace Sys2Proof.Machine

/-! ### The tag that a bay holds or plans -/

/-- R117, R124: the list of a cutover and its run record at the hand-off. -/
def Part.listing (listed : List Nat) (p : Part) : Part :=
  p.mapCut fun c => { c with list := listed, run := some ⟨p.fm.clock, listed.length, 0⟩ }

/-- R77: every bay keeps its folded mark, and the tag it holds or plans. -/
def Part.Leads (p q : Part) : Prop :=
  ∀ b r, p.fm.node? b = some r → ∃ r', q.fm.node? b = some r' ∧ r'.folded = r.folded ∧ r'.nextTag.getD r'.tag = r.nextTag.getD r.tag

namespace Part.Leads
variable {p q r : Part}

theorem of_fm (same : q.fm.bays = p.fm.bays) : p.Leads q := by
  intro b r node
  refine ⟨r, ?_, rfl, rfl⟩
  rw [← node]
  unfold FloorModel.node? FloorModel.bay?
  rw [same]

theorem trans (pq : p.Leads q) (qr : q.Leads r) : p.Leads r := by
  intro b x node
  obtain ⟨y, nodeQ, foldedQ, tagQ⟩ := pq b x node
  obtain ⟨z, nodeR, foldedR, tagR⟩ := qr b y nodeQ
  exact ⟨z, nodeR, foldedR.trans foldedQ, tagR.trans tagQ⟩

theorem mapNodes {g : Nat → BayRec → BayRec} (folded : ∀ b r, (g b r).folded = r.folded)
    (tags : ∀ b r, (g b r).nextTag.getD (g b r).tag = r.nextTag.getD r.tag) (p : Part) : p.Leads (p.mapFm (·.mapNodes g)) := by
  intro b r node
  exact ⟨g b r, by rw [mapFm_fm, FloorModel.node?_mapNodes, node]; rfl, folded b r, tags b r⟩

theorem cutBay (b : Nat) (p : Part) : p.Leads (p.cutBay b) := by
  intro b' r node
  by_cases own : b' = b
  · subst own
    cases next : r.nextTag with
    | none =>
      refine ⟨r, ?_, rfl, by rw [next]⟩
      rw [Part.cutBay_of_still fun _ n there => by cases node.symm.trans there; rw [next]; exact nofun]
      exact node
    | some n =>
      obtain ⟨target, moved⟩ := Part.cutBay_node? node next
      exact ⟨_, moved, rfl, rfl⟩
  · exact ⟨r, (p.cutBay_node?_other own).trans node, rfl, rfl⟩

theorem cutBays (bs : List Nat) (p : Part) : p.Leads (p.cutBays bs) := by
  induction bs generalizing p with
  | nil => exact of_fm rfl
  | cons b bs ih => exact (cutBay b p).trans (ih (p.cutBay b))

theorem allocate (p : Part) : p.Leads p.allocate := by
  intro b r node
  cases supply : p.afa.supply with
  | none =>
    refine ⟨r, ?_, rfl, rfl⟩
    unfold Part.allocate
    rw [supply]
    exact node
  | some f =>
    obtain ⟨q, held⟩ := Part.allocate_node? supply node
    exact ⟨_, held, rfl, rfl⟩

theorem completeCutover (cause : EndCause) (p : Part) : p.Leads (p.completeCutover cause) := by
  intro b r node
  obtain ⟨q, held⟩ := p.completeCutover_node? cause node
  exact ⟨_, held, rfl, rfl⟩

theorem completeIfEmpty (cause : EndCause) (p : Part) : p.Leads (p.completeIfEmpty cause) := by
  unfold Part.completeIfEmpty
  split
  · exact completeCutover cause p
  · exact of_fm rfl

theorem startCutover (pacing : Pacing) (listed : List Nat) (p : Part) : p.Leads (p.startCutover pacing listed) := by
  cases pacing with
  | block =>
    refine trans (of_fm rfl) (trans (cutBays listed (p.listing listed)) ?_)
    exact completeIfEmpty .paced _
  | step => exact of_fm rfl
  | vacant =>
    refine trans (of_fm rfl) (trans (cutBays (p.listing listed).silentListed
      (((p.listing listed).mapRsq fun r => { r with seq := .cutting }).mapCut fun c => { c with deadline := .running c.limit })) ?_)
    exact completeIfEmpty .paced _

theorem handOff (pacing : Pacing) (p : Part) : p.Leads (p.handOff pacing) := by
  unfold Part.handOff
  split
  · exact of_fm (congrArg FloorModel.bays p.returnToIdle_fm)
  · exact startCutover pacing p.movingBays p

theorem retargetAll (p : Part) : p.Leads p.retargetAll := mapNodes (fun _ _ => by split <;> rfl) (fun _ _ => by split <;> rfl) p

theorem lightFloor (p : Part) : p.Leads p.lightFloor := by
  have lit : p.Leads ((p.retargetAll).mapFm (·.mapNodes fun _ r => { r with level := r.target })) :=
    (retargetAll p).trans (mapNodes (g := fun _ r => { r with level := r.target }) (fun _ _ => rfl) (fun _ _ => rfl) _)
  exact lit.trans (of_fm (congrArg FloorModel.bays (Part.handOverAll_fm ..)))

theorem enterRunning (p : Part) : p.Leads p.enterRunning :=
  (lightFloor p).trans ((allocate p.lightFloor).trans (of_fm
    (show p.lightFloor.allocate.joinAll.fm.bays = p.lightFloor.allocate.fm.bays from congrArg _ (Part.joinAll_fm _))))

end Part.Leads

/-! ### What a plan gives the bays of one component -/

/-- The components of a plan are those of its solve. -/
theorem SolveInput.kept_components {i : SolveInput} {k : Component × Nat} (mem : k ∈ i.plan.kept) : k.1 ∈ i.components :=
  (mem_rooms.1 (mem_kept.1 mem).1).1

theorem SolveInput.admitted_components {i : SolveInput} {a : Component × Nat} (mem : a ∈ i.plan.admitted) : a.1 ∈ i.components :=
  component_of_born (mem_admitted mem).1

/-- A component of a list is found by any of its bays. -/
theorem SolveInput.find?_bays {i : SolveInput} {α : Type} {l : List (Component × α)} (within : ∀ k ∈ l, k.1 ∈ i.components)
    {c : Component} (mem : c ∈ i.components) {b : Nat} (inside : b ∈ c.bays) :
    (l.find? fun k => decide (b ∈ k.1.bays)) = l.find? fun k => decide (k.1 = c) := by
  refine List.find?_congr fun k held => ?_
  have same : b ∈ k.1.bays ↔ k.1 = c := by
    constructor
    · exact fun there => component_eq_of_bay (within k held) mem there inside
    · exact fun eq => eq ▸ inside
  simp only [same]

/-- R77: the tag planned for a whole component. -/
theorem SolveInput.plannedTag_component {i : SolveInput} (given : List (Nat × Nat)) {c : Component} (mem : c ∈ i.components) {b : Nat}
    (inside : b ∈ c.bays) : i.plan.plannedTag given b = i.plan.plannedTag given c.key := by
  unfold Plan.plannedTag
  rw [find?_bays (fun _ => kept_components) mem inside, find?_bays (fun _ => admitted_components) mem inside,
    find?_bays (fun _ => kept_components) mem (key_mem mem), find?_bays (fun _ => admitted_components) mem (key_mem mem)]

/-- R69, R77: the bays of a floor component are planned for zone 0. -/
theorem SolveInput.plannedTag_floor {i : SolveInput} (given : List (Nat × Nat)) {c : Component} (mem : c ∈ i.components)
    (floor : (∃ b ∈ c.bays, b ∈ i.spine) ∨ i.rl < c.bays.length) {b : Nat} (inside : b ∈ c.bays) : i.plan.plannedTag given b = 0 := by
  have noRoom : c ∉ i.rooms := fun room => (mem_rooms.1 room).2 floor
  have notKept : (i.plan.kept.find? fun k => decide (k.1 = c)) = none := by
    refine List.find?_eq_none.2 fun k held found => noRoom ?_
    exact of_decide_eq_true found ▸ (mem_kept.1 held).1
  have notAdmitted : (i.plan.admitted.find? fun k => decide (k.1 = c)) = none := by
    refine List.find?_eq_none.2 fun k held found => noRoom ?_
    exact of_decide_eq_true found ▸ (mem_born.1 (mem_admitted held).1).1
  unfold Plan.plannedTag
  rw [find?_bays (fun _ => kept_components) mem inside, find?_bays (fun _ => admitted_components) mem inside, notKept, notAdmitted]

/-! ### An accepted completion -/

/-- R80: the tags that a commit gives, by the keys of the admitted components. -/
def Part.tagsGiven (plan : Plan) (p : Part) : List (Nat × Nat) :=
  ((p.zt.mapZones fun z => { z with parent := none }).allocateAll plan.admitted).2

/-- R79, step 3. -/
theorem Part.zoned_node? (plan : Plan) (p : Part) (b : Nat) :
    (p.zoned plan).fm.node? b = (p.fm.node? b).map (BayRec.planned plan (p.tagsGiven plan) b) := by
  have retired (zt : Zt) : (plan.retiring.foldl retire { p with zt := zt }).fm = p.fm :=
    foldl_keeps retire (·.fm) (fun p t => (p.retire_blocks t).2.2.2) _ _
  have fm : (p.zoned plan).fm = p.fm.mapNodes (BayRec.planned plan (p.tagsGiven plan)) :=
    congrArg (fun f : FloorModel => f.mapNodes (BayRec.planned plan (p.tagsGiven plan))) (retired _)
  rw [fm, FloorModel.node?_mapNodes]

theorem Part.commit_node? (plan : Plan) (edges : List EdgeState) (p : Part) (b : Nat) :
    (p.commit plan edges).fm.node? b = (p.fm.node? b).map (BayRec.planned plan (p.tagsGiven plan) b) := by
  rw [commit_eq, raiseAll_fm]
  exact p.zoned_node? plan b

theorem BayRec.planned_leads (plan : Plan) (given : List (Nat × Nat)) (b : Nat) (r : BayRec) :
    (r.planned plan given b).nextTag.getD (r.planned plan given b).tag = plan.plannedTag given b := by
  unfold planned
  dsimp only
  split
  · next same => exact same.symm
  · rfl

/-- What the hand-off of a commit does, by the snapshot. -/
def Part.handedOff (snap : Snapshot) (pacing : Pacing) (p : Part) : Part :=
  if snap.initial then (p.handOff .block).enterRunning else p.handOff pacing

theorem Part.completeSolve_of_accepted {p : Part} {snap : Snapshot} (solving : p.rsq.seq = .solving) (held : p.rsq.snapshot = some snap)
    (unchanged : p.pmon.changed = false) :
    p.completeSolve = (p.commit (p.solveInput snap.edges).plan snap.edges).handedOff snap
      (p.commit (p.solveInput snap.edges).plan snap.edges).cut.mode := by
  unfold completeSolve
  rw [solving, held]
  dsimp only
  rw [if_neg (by rw [unchanged]; exact Bool.false_ne_true)]
  rfl

theorem Part.Leads.handedOff (snap : Snapshot) (pacing : Pacing) (p : Part) : p.Leads (p.handedOff snap pacing) := by
  unfold Part.handedOff
  split
  · exact (handOff .block p).trans (enterRunning _)
  · exact handOff pacing p

/-- R75, R77: after an accepted completion every bay holds or plans its planned tag, and is marked where it is folded. -/
theorem Part.completeSolve_leads {p : Part} {snap : Snapshot} (solving : p.rsq.seq = .solving) (held : p.rsq.snapshot = some snap)
    (unchanged : p.pmon.changed = false) {b : Nat} {r : BayRec} (node : p.fm.node? b = some r) :
    ∃ r', p.completeSolve.fm.node? b = some r' ∧ r'.folded = (p.solveInput snap.edges).plan.isFolded b
      ∧ r'.nextTag.getD r'.tag
        = (p.solveInput snap.edges).plan.plannedTag (p.tagsGiven (p.solveInput snap.edges).plan) b := by
  rw [completeSolve_of_accepted solving held unchanged]
  generalize (p.solveInput snap.edges).plan = plan
  obtain ⟨r', node', folded, tag⟩ := Leads.handedOff snap (p.commit plan snap.edges).cut.mode (p.commit plan snap.edges) b _
    (by rw [commit_node?, node, Option.map_some])
  exact ⟨r', node', folded, tag.trans (r.planned_leads plan _ b)⟩

theorem Part.roomable_of_component {p : Part} {edges : List EdgeState} {c : Component} (mem : c ∈ (p.solveInput edges).components)
    {b : Nat} (inside : b ∈ c.bays) : ∃ r, p.fm.node? b = some r := by
  have roomable := (SolveInput.bays_of_component mem inside).1
  obtain ⟨x, tagged, rfl⟩ := List.mem_map.1 roomable
  obtain ⟨⟨b, r⟩, node, rfl⟩ := List.mem_map.1 tagged
  exact ⟨r, (p.fm.mem_nodes b r).1 node⟩

/-- Settles O47: a plan tells bays apart by their components alone, gives floor components zone 0, and the hand-off keeps what each bay
holds or plans. -/
theorem acceptedSolveZonesEachComponent : Obligations.AcceptedSolveZonesEachComponent := by
  unfold Obligations.AcceptedSolveZonesEachComponent
  intro snap s solving held unchanged
  refine ⟨_, rfl, fun c mem => ?_⟩
  refine ⟨(s.part.solveInput snap.edges).plan.plannedTag (s.part.tagsGiven (s.part.solveInput snap.edges).plan) c.key,
    fun b inside => ?_⟩
  obtain ⟨r, node⟩ := Part.roomable_of_component mem inside
  obtain ⟨r', node', -, tag⟩ := Part.completeSolve_leads solving held unchanged node
  rw [SolveInput.plannedTag_component _ mem inside] at tag
  refine ⟨r', node', tag, fun floor => ?_⟩
  exact SolveInput.plannedTag_floor _ mem floor (SolveInput.key_mem mem)

end Sys2Proof.Machine

/-!
What the operations outside the cutovers and the commit leave of the zone table, the bays' tags, the cutover list and the grants, and
that they keep the zones and levels in range.
-/
namespace Sys2Proof.Machine

/-! ### The bays' records rewritten -/

theorem FloorModel.nodes_mapNodes (g : Nat → BayRec → BayRec) (f : FloorModel) :
    (f.mapNodes g).nodes = f.nodes.map fun x => (x.1, g x.1 x.2) := by
  unfold nodes mapNodes
  dsimp only
  generalize 1 = n
  induction f.bays generalizing n with
  | nil => rfl
  | cons bay bays ih =>
    cases bay with
    | core => exact ih (n + 1)
    | roomable r => exact congrArg ((n, g n r) :: ·) (ih (n + 1))

theorem FloorModel.mapNodes_size (g : Nat → BayRec → BayRec) (f : FloorModel) : (f.mapNodes g).bays.length = f.bays.length :=
  mapFrom_length ..

/-- R86, R110: where each ROOMABLE bay is and goes. -/
def FloorModel.marks (f : FloorModel) : List (Nat × Nat × Option Nat) := f.nodes.map fun x => (x.1, x.2.tag, x.2.nextTag)

/-- R158: each ROOMABLE bay's grant. -/
def FloorModel.grants (f : FloorModel) : List (Nat × Nat) := f.nodes.map fun x => (x.1, x.2.q)

theorem FloorModel.marks_mapNodes {g : Nat → BayRec → BayRec} {f : FloorModel}
    (same : ∀ x ∈ f.nodes, (g x.1 x.2).tag = x.2.tag ∧ (g x.1 x.2).nextTag = x.2.nextTag) : (f.mapNodes g).marks = f.marks := by
  rw [marks, nodes_mapNodes, List.map_map]
  refine List.map_congr_left fun x mem => ?_
  obtain ⟨tag, nextTag⟩ := same x mem
  exact congrArg (Prod.mk x.1) (Prod.ext tag nextTag)

theorem FloorModel.grants_mapNodes {g : Nat → BayRec → BayRec} {f : FloorModel} (same : ∀ x ∈ f.nodes, (g x.1 x.2).q = x.2.q) :
    (f.mapNodes g).grants = f.grants := by
  rw [grants, nodes_mapNodes, List.map_map]
  exact List.map_congr_left fun x mem => congrArg (Prod.mk x.1) (same x mem)

/-! ### Levels and zones in range -/

/-- R129: a bay's level and target in range. -/
def BayRec.Lit (r : BayRec) : Prop := (∀ l, r.level = some l → l ≤ 1000) ∧ ∀ g, r.target = some g → g ≤ 1000

/-- R86, R87, R92, R104: the zone table in range. -/
def Zt.Valid (t : Zt) : Prop :=
  t.slots.length = 64 ∧ (1 ≤ t.nextTag ∧ t.nextTag ≤ 250) ∧ (∀ z ∈ t.zones, z.tag ≤ 250 ∧ SettingsValid z.settings) ∧ t.pins.length ≤ 16

theorem zonesValid_iff (p : Part) : ZonesValid p ↔ p.zt.Valid ∧ ∀ b r, p.fm.node? b = some r → r.Lit :=
  ⟨fun ⟨slots, counter, zones, pins, lit⟩ => ⟨⟨slots, counter, zones, pins⟩, lit⟩,
    fun ⟨⟨slots, counter, zones, pins⟩, lit⟩ => ⟨slots, counter, zones, pins, lit⟩⟩

theorem Zt.mem_zones_of_zone? {t : Zt} {tag : Nat} {z : Zone} (zone : t.zone? tag = some z) : z ∈ t.zones :=
  List.mem_of_find?_eq_some zone

theorem Zt.Valid.mapZones {t : Zt} (h : t.Valid) {g : Zone → Zone} (kept : ∀ z, z.tag ≤ 250 → SettingsValid z.settings →
    (g z).tag ≤ 250 ∧ SettingsValid (g z).settings) : (t.mapZones g).Valid := by
  obtain ⟨slots, counter, zones, pins⟩ := h
  refine ⟨(List.length_map _).trans slots, counter, ?_, pins⟩
  rw [zones_mapZones]
  intro z mem
  obtain ⟨y, held, rfl⟩ := List.mem_map.1 mem
  exact kept y (zones y held).1 (zones y held).2

theorem Zone.target_le {z : Zone} (valid : SettingsValid z.settings) : z.target ≤ 1000 := by
  obtain ⟨occupied, standby, -⟩ := valid
  unfold target
  split
  · exact Nat.zero_le _
  · split
    · exact occupied
    · omega

theorem Zt.Valid.target_le {t : Zt} (h : t.Valid) {tag : Nat} {z : Zone} (zone : t.zone? tag = some z) : z.target ≤ 1000 :=
  Zone.target_le (h.2.2.1 z (mem_zones_of_zone? zone)).2

theorem fadeToward_le {step g l : Nat} (low : l ≤ 1000) (target : g ≤ 1000) : fadeToward step g l ≤ 1000 := by
  rw [fadeToward_eq]
  split_ifs <;> omega

theorem BayRec.Lit.retargeted {r : BayRec} (h : r.Lit) {g : Nat} (low : g ≤ 1000) : ({ r with target := some g } : BayRec).Lit := by
  refine ⟨h.1, fun g' eq => ?_⟩
  cases eq
  exact low

theorem BayRec.Lit.fade {r : BayRec} (h : r.Lit) (t : Zt) : (r.fade t).Lit := by
  unfold BayRec.fade
  split
  · next l g z level target zone =>
    refine ⟨fun l' eq => ?_, h.2⟩
    cases eq
    exact fadeToward_le (h.1 l level) (h.2 g target)
  · exact h

/-- R95: clamping brings settings into their ranges. -/
theorem Settings.clamped_valid (s : Settings) : SettingsValid s.clamped := by
  have level := clamp_range (Nat.zero_le 1000) s.occupiedLevel
  have delay := clamp_range (show 30 ≤ 7200 by decide) s.vacancyDelay
  have heat := clamp_range (show 40 ≤ 120 by decide) s.heatSetpoint
  have cool := clamp_range (show 48 ≤ 128 by decide) s.coolSetpoint
  have gain := clamp_range (Nat.zero_le 40) s.gain
  have rate := clamp_range (show 10 ≤ 1000 by decide) s.fadeRate
  exact ⟨level.2, Nat.min_le_left .., delay, heat, ⟨Nat.le_max_left .., max_le (by omega) cool.2⟩, gain.2, rate⟩

/-! ### The frame of the zones -/

/-- What the zone laws read of a zone. -/
def Zone.standing (z : Zone) : Nat × Life × Nat := (z.tag, z.life, z.members)

/-- What the zone laws read of the zone table. -/
def Zt.standings (t : Zt) : List (Option (Nat × Life × Nat)) := t.slots.map (Option.map Zone.standing)

theorem Zt.standings_mapZones {g : Zone → Zone} (same : ∀ z, (g z).standing = z.standing) (t : Zt) :
    (t.mapZones g).standings = t.standings := by
  rw [standings, mapZones, List.map_map]
  refine List.map_congr_left fun o _ => ?_
  cases o with
  | none => rfl
  | some z => exact congrArg some (same z)

/-- The zone table, the bays' tags and the cutover list are the same to the zone laws, and in range where they were. -/
structure Part.Standing (p q : Part) : Prop where
  state : q.fm.state = p.fm.state
  size : q.fm.bays.length = p.fm.bays.length
  marks : q.fm.marks = p.fm.marks
  standings : q.zt.standings = p.zt.standings
  list : q.cut.list = p.cut.list
  valid : ZonesValid p → ZonesValid q

/-- The grants, the budget and the allocation timer are the same. -/
structure Part.SameGrants (p q : Part) : Prop where
  state : q.fm.state = p.fm.state
  grid : q.fm.grid = p.fm.grid
  nr : q.fm.nr = p.fm.nr
  grants : q.fm.grants = p.fm.grants
  supply : q.afa.supply = p.afa.supply
  timer : q.afa.timer = p.afa.timer

/-- Both. -/
structure Part.Steady (p q : Part) : Prop where
  standing : p.Standing q
  sameGrants : p.SameGrants q

theorem Part.Standing.refl (p : Part) : p.Standing p := ⟨rfl, rfl, rfl, rfl, rfl, id⟩

theorem Part.Standing.trans {p q r : Part} (pq : p.Standing q) (qr : q.Standing r) : p.Standing r :=
  ⟨qr.state.trans pq.state, qr.size.trans pq.size, qr.marks.trans pq.marks, qr.standings.trans pq.standings, qr.list.trans pq.list,
    fun h => qr.valid (pq.valid h)⟩

theorem Part.Standing.of_blocks {p q : Part} (state : q.fm.state = p.fm.state) (bays : q.fm.bays = p.fm.bays) (zt : q.zt = p.zt)
    (list : q.cut.list = p.cut.list) : p.Standing q where
  state := state
  size := congrArg List.length bays
  marks := congrArg (List.map _) (show q.fm.nodes = p.fm.nodes by unfold FloorModel.nodes; rw [bays])
  standings := by rw [zt]
  list := list
  valid h := by
    have node (b : Nat) : q.fm.node? b = p.fm.node? b := FloorModel.node?_congr bays b
    rw [zonesValid_iff] at h ⊢
    simpa only [node, zt] using h

/-- Bays rewritten but for their tags, their levels and targets kept in range. -/
theorem Part.Standing.mapNodes {g : Nat → BayRec → BayRec} (p : Part) (tag : ∀ b r, (g b r).tag = r.tag)
    (nextTag : ∀ b r, (g b r).nextTag = r.nextTag) (lit : p.zt.Valid → ∀ b r, p.fm.node? b = some r → r.Lit → (g b r).Lit) :
    p.Standing (p.mapFm (·.mapNodes g)) where
  state := rfl
  size := FloorModel.mapNodes_size ..
  marks := FloorModel.marks_mapNodes fun x _ => ⟨tag x.1 x.2, nextTag x.1 x.2⟩
  standings := rfl
  list := rfl
  valid h := by
    rw [zonesValid_iff] at h ⊢
    refine ⟨h.1, fun b r node => ?_⟩
    rw [mapFm_fm, FloorModel.node?_mapNodes, Option.map_eq_some_iff] at node
    obtain ⟨r', node', rfl⟩ := node
    exact lit h.1 b r' node' (h.2 b r' node')

theorem Part.SameGrants.refl (p : Part) : p.SameGrants p := ⟨rfl, rfl, rfl, rfl, rfl, rfl⟩

theorem Part.SameGrants.trans {p q r : Part} (pq : p.SameGrants q) (qr : q.SameGrants r) : p.SameGrants r :=
  ⟨qr.state.trans pq.state, qr.grid.trans pq.grid, qr.nr.trans pq.nr, qr.grants.trans pq.grants, qr.supply.trans pq.supply,
    qr.timer.trans pq.timer⟩

namespace Part.Steady
variable {p q r : Part}

theorem refl (p : Part) : p.Steady p := ⟨.refl p, .refl p⟩

theorem trans (pq : p.Steady q) (qr : q.Steady r) : p.Steady r := ⟨pq.standing.trans qr.standing, pq.sameGrants.trans qr.sameGrants⟩

theorem ite {c : Prop} [Decidable c] {q r : Part} (yes : p.Steady q) (no : p.Steady r) : p.Steady (if c then q else r) := by
  split <;> assumption

theorem foldl {β : Type} {f : Part → β → Part} (one : ∀ (p : Part) b, p.Steady (f p b)) (l : List β) (p : Part) : p.Steady (l.foldl f p) := by
  induction l generalizing p with
  | nil => exact refl p
  | cons b l ih => exact (one p b).trans (ih (f p b))

/-- What writes neither the floor, the zones, the list nor the budget. -/
theorem of_blocks (state : q.fm.state = p.fm.state) (bays : q.fm.bays = p.fm.bays) (grid : q.fm.grid = p.fm.grid)
    (nr : q.fm.nr = p.fm.nr) (zt : q.zt = p.zt) (list : q.cut.list = p.cut.list) (supply : q.afa.supply = p.afa.supply)
    (timer : q.afa.timer = p.afa.timer) : p.Steady q :=
  ⟨.of_blocks state bays zt list,
    ⟨state, grid, nr, congrArg (List.map _) (show q.fm.nodes = p.fm.nodes by unfold FloorModel.nodes; rw [bays]), supply, timer⟩⟩

theorem of_parts (fm : q.fm = p.fm) (zt : q.zt = p.zt) (cut : q.cut = p.cut) (afa : q.afa = p.afa) : p.Steady q :=
  of_blocks (by rw [fm]) (by rw [fm]) (by rw [fm]) (by rw [fm]) zt (by rw [cut]) (by rw [afa]) (by rw [afa])

theorem raise (x : Report) (p : Part) : p.Steady (p.raise x) := of_parts rfl rfl rfl rfl

theorem handOverAll (bs : List Nat) (p : Part) : p.Steady (p.handOverAll bs) := of_parts (by simp) (by simp) (by simp) (by simp)

theorem mapRsq (g : Rsq → Rsq) (p : Part) : p.Steady (p.mapRsq g) := of_parts rfl rfl rfl rfl

theorem mapPmon (g : Pmon → Pmon) (p : Part) : p.Steady (p.mapPmon g) := of_parts rfl rfl rfl rfl

theorem mapCbm (g : Cbm → Cbm) (p : Part) : p.Steady (p.mapCbm g) := of_parts rfl rfl rfl rfl

theorem mapCut {g : Cut → Cut} (p : Part) (list : (g p.cut).list = p.cut.list) : p.Steady (p.mapCut g) :=
  of_blocks rfl rfl rfl rfl rfl list rfl rfl

/-- Bays rewritten but for their tags and grants, their levels and targets kept in range. -/
theorem mapNodes {g : Nat → BayRec → BayRec} (p : Part) (tag : ∀ b r, (g b r).tag = r.tag)
    (nextTag : ∀ b r, (g b r).nextTag = r.nextTag) (grant : ∀ b r, (g b r).q = r.q)
    (lit : p.zt.Valid → ∀ b r, p.fm.node? b = some r → r.Lit → (g b r).Lit) : p.Steady (p.mapFm (·.mapNodes g)) where
  standing := .mapNodes p tag nextTag lit
  sameGrants := ⟨rfl, rfl, rfl, FloorModel.grants_mapNodes fun x _ => grant x.1 x.2, rfl, rfl⟩

/-- One bay's record rewritten in the same way. -/
theorem modifyNode {g : BayRec → BayRec} (b : Nat) (p : Part) (tag : ∀ r, (g r).tag = r.tag)
    (nextTag : ∀ r, (g r).nextTag = r.nextTag) (grant : ∀ r, (g r).q = r.q)
    (lit : p.zt.Valid → ∀ r, p.fm.node? b = some r → r.Lit → (g r).Lit) : p.Steady (p.modifyNode b g) := by
  refine mapNodes p (fun b' r => ?_) (fun b' r => ?_) (fun b' r => ?_) fun valid b' r node h => ?_
  · exact (apply_ite BayRec.tag _ _ _).trans (by rw [tag, ite_self])
  · exact (apply_ite BayRec.nextTag _ _ _).trans (by rw [nextTag, ite_self])
  · exact (apply_ite BayRec.q _ _ _).trans (by rw [grant, ite_self])
  · split
    · next same => exact lit valid r (same ▸ node) h
    · exact h

/-- Zones rewritten but for their standing, their settings kept in range. -/
theorem mapZones {g : Zone → Zone} (p : Part) (standing : ∀ z, (g z).standing = z.standing)
    (settings : ∀ z, SettingsValid z.settings → SettingsValid (g z).settings) : p.Steady (p.mapZt (·.mapZones g)) where
  standing :=
    { state := rfl
      size := rfl
      marks := rfl
      standings := Zt.standings_mapZones standing p.zt
      list := rfl
      valid := fun h => by
        rw [zonesValid_iff] at h ⊢
        refine ⟨h.1.mapZones fun z low valid => ⟨?_, settings z valid⟩, h.2⟩
        rw [show (g z).tag = z.tag from congrArg Prod.fst (standing z)]
        exact low }
  sameGrants := ⟨rfl, rfl, rfl, rfl, rfl, rfl⟩

theorem modifyZone {g : Zone → Zone} (tag : Nat) (p : Part) (standing : ∀ z, (g z).standing = z.standing)
    (settings : ∀ z, SettingsValid z.settings → SettingsValid (g z).settings) : p.Steady (p.mapZt (·.modifyZone tag g)) := by
  refine mapZones p (fun z => ?_) fun z valid => ?_
  · split
    · exact standing z
    · rfl
  · split
    · exact settings z valid
    · exact valid

/-- R104: pins rewritten within their number. -/
theorem pins {pins : List Pin} (p : Part) (room : p.zt.pins.length ≤ 16 → pins.length ≤ 16) :
    p.Steady (p.mapZt fun t => { t with pins := pins }) where
  standing :=
    { state := rfl
      size := rfl
      marks := rfl
      standings := rfl
      list := rfl
      valid := fun h => by
        obtain ⟨slots, counter, zones, pins, lit⟩ := h
        exact ⟨slots, counter, zones, room pins, lit⟩ }
  sameGrants := ⟨rfl, rfl, rfl, rfl, rfl, rfl⟩

/-! Of the lighting. -/

theorem retargetZone (tag : Nat) (p : Part) : p.Steady (p.retargetZone tag) := by
  unfold Part.retargetZone
  split
  · next z running zone =>
    refine mapNodes p (fun _ r => ?_) (fun _ r => ?_) (fun _ r => ?_) fun valid _ r _ h => ?_
    · split <;> rfl
    · split <;> rfl
    · split <;> rfl
    · split
      · exact h.retargeted (valid.target_le zone)
      · exact h
  · exact refl p

theorem retargetAll (p : Part) : p.Steady p.retargetAll := by
  unfold Part.retargetAll
  refine mapNodes p (fun _ r => ?_) (fun _ r => ?_) (fun _ r => ?_) fun valid _ r _ h => ?_
  · split <;> rfl
  · split <;> rfl
  · split <;> rfl
  · split
    · next zone => exact h.retargeted (valid.target_le zone)
    · exact h

theorem occupiedFlag (tag : Nat) (o : Bool) (p : Part) : p.Steady (p.occupiedFlag tag o) := by
  have started : p.Steady (p.mapZt (·.modifyZone tag (Zone.startOccupied p.fm.clock))) := modifyZone tag p (fun _ => rfl) fun _ => id
  unfold Part.occupiedFlag
  split
  · dsimp only
    split
    · exact started.trans ((raise _ _).trans (retargetZone tag _))
    · exact started
  · exact refl p
  · exact refl p

theorem vacancyExpiry (tag : Nat) (p : Part) : p.Steady (p.vacancyExpiry tag) := by
  unfold Part.vacancyExpiry
  split
  · exact ite ((modifyZone tag p (g := fun z => { z with occupancy := .vacant, vacancy := .stopped, manualOff := false })
      (fun _ => rfl) fun _ => id).trans ((raise _ _).trans (retargetZone tag _))) (refl p)
  · exact refl p

theorem press_settings (k : Key) (z : Zone) (valid : SettingsValid z.settings) : SettingsValid (z.press k).settings := by
  obtain ⟨occupied, standby, rest⟩ := valid
  have adjusted (up : Bool) : SettingsValid (z.settings.adjust up) := by
    refine ⟨?_, Nat.min_le_left .., rest⟩
    exact (clamp_range (Nat.zero_le 1000) _).2
  cases k with
  | toggle => exact ⟨occupied, standby, rest⟩
  | raise => exact adjusted true
  | lower => exact adjusted false

theorem keypadEvent (b : Nat) (k : Key) (p : Part) : p.Steady (p.keypadEvent b k) := by
  unfold Part.keypadEvent
  split
  · next tag _ =>
    refine (modifyZone tag p (g := Zone.press k) (fun z => ?_) (press_settings k)).trans (retargetZone tag _)
    cases k <;> rfl
  · exact refl p

theorem tellLighting (b : Nat) (occupied : Bool) (key : Option Key) (p : Part) : p.Steady (p.tellLighting b occupied key) := by
  have noted : p.Steady (match p.fm.node? b with
      | some r => p.occupiedFlag r.tag occupied
      | none => p) := by
    cases p.fm.node? b with
    | none => exact refl p
    | some r => exact occupiedFlag r.tag occupied p
  unfold Part.tellLighting
  split
  · cases key with
    | none => exact noted
    | some k => exact noted.trans (keypadEvent b k _)
  · exact refl p
  · exact refl p

theorem fadeTick (p : Part) : p.Steady p.fadeTick := by
  unfold Part.fadeTick
  split
  · refine (mapNodes p (g := fun _ r => r.fade p.zt) (fun _ r => ?_) (fun _ r => ?_) (fun _ r => ?_) fun _ _ r _ h => h.fade p.zt).trans
      (handOverAll _ _) <;> (unfold BayRec.fade; split <;> rfl)
  · exact refl p
  · exact refl p

theorem lightFloor (p : Part) : p.Steady p.lightFloor := by
  unfold Part.lightFloor
  refine (((retargetAll p).trans (mapNodes (g := fun _ r => { r with level := r.target }) _ (fun _ _ => rfl) (fun _ _ => rfl)
    (fun _ _ => rfl) fun _ _ _ _ h => ⟨h.2, h.2⟩)).trans (handOverAll _ _)).trans (mapZones _ (fun z => ?_) fun z valid => ?_)
  · split <;> rfl
  · split <;> exact valid

/-! Of the transactions and the edges. -/

theorem polled (b : Nat) (reply : PollReply) (p : Part) : p.Steady (p.polled b reply) := by
  have back : p.Steady (p.comeBack b) := by
    unfold Part.comeBack
    split
    · split
      · exact (modifyNode (g := fun r => { r with health := .ok, failures := 0, keyCounter := none }) b p (fun _ => rfl) (fun _ => rfl) (fun _ => rfl)
          fun _ _ _ h => h).trans (of_parts rfl rfl rfl rfl)
      · exact refl p
    · exact refl p
  refine (back.trans (modifyNode (g := fun r =>
    { r with failures := 0, inputs := some reply.inputs, keyCounter := some reply.keyCounter }) b _ (fun _ => rfl) (fun _ => rfl)
    (fun _ => rfl) fun _ _ _ h => h)).trans ?_
  exact of_parts (checkEcho_fm ..) (checkEcho_zt ..) (checkEcho_cut ..) (checkEcho_afa ..)

theorem contacts (b : Nat) (east south : Bool) (p : Part) : p.Steady (p.contacts b east south) :=
  of_parts (by simp) (by simp) (by simp) (by simp)

theorem applyOverrides (xs : List (Nat × Nat)) (p : Part) : p.Steady (p.applyOverrides xs).1 := by
  induction xs generalizing p with
  | nil => exact refl p
  | cons x xs ih =>
    unfold Part.applyOverrides
    by_cases good : p.GoodEntry x
    · rw [Part.badEntry_of_good good]
      have one : p.Steady (p.applyOverride x) := by
        unfold Part.applyOverride
        split
        · exact of_parts (by simp) (by simp) (by simp) (by simp)
        · exact refl p
      exact one.trans (ih (p.applyOverride x))
    · rw [Part.badEntry_of_bad good]
      exact refl p

theorem clearCandidates (b : Nat) (p : Part) : p.Steady (p.clearCandidates b) := of_parts (by simp) (by simp) (by simp) (by simp)

theorem validDrive (b : Nat) (sent : Pair) (p : Part) : p.Steady (p.validDrive b sent) := by
  have noted : p.Steady (p.modifyNode b fun r => { r with failures := 0, lastSent := some sent }) :=
    modifyNode b p (fun _ => rfl) (fun _ => rfl) (fun _ => rfl) fun _ _ _ h => h
  unfold Part.validDrive
  dsimp only
  split
  · exact ite (noted.trans (of_parts rfl rfl rfl rfl)) (noted.trans (of_parts rfl rfl rfl rfl))
  · exact noted.trans (of_parts rfl rfl rfl rfl)

theorem counted {rounds : Nat} {cbm : Cbm} : p.Steady { p with cbm := cbm, fm := { p.fm with surveyRounds := rounds } } :=
  of_blocks rfl rfl rfl rfl rfl rfl rfl rfl

theorem surveyEnd {cbm : Cbm} :
    p.Steady { (p.mapFm fun f => { f with surveyRounds := f.surveyRounds + 1 }).endSurvey with cbm := cbm } :=
  of_blocks rfl rfl rfl rfl rfl rfl rfl rfl

theorem arbitrate (p : Part) : p.Steady p.arbitrate := by
  obtain ⟨rounds, cbm, eq⟩ | ⟨-, cbm, eq⟩ := p.arbitrate_cases <;> rw [eq]
  · exact counted
  · exact surveyEnd

theorem round (p : Part) : p.Steady p.completeRound.arbitrateAfterHold := by
  have same := p.completeRound.arbitrateAfterHold_sameButCbm
  rw [same]
  obtain ⟨rounds, cbm, eq⟩ | ⟨-, cbm, eq⟩ := p.completeRound_cases <;> rw [eq]
  · exact counted
  · exact surveyEnd

theorem notice (p : Part) : p.Steady p.notice := of_parts (by simp) (by simp) (by simp) (by simp)

theorem quietExpiry (p : Part) : p.Steady p.quietExpiry := by
  unfold Part.quietExpiry
  split
  · exact (mapPmon _ p).trans (notice _)
  · exact refl p

theorem zoneClimate (tag : Nat) (p : Part) : p.Steady (p.zoneClimate tag) := by
  unfold Part.zoneClimate
  split
  · dsimp only
    have written (tz : Option Nat) (call : Bool) : p.Steady (p.mapZt (·.modifyZone tag fun z => { z with tz := tz, heatCall := call })) :=
      modifyZone tag p (fun _ => rfl) fun _ => id
    exact ite (written _ _) ((written _ _).trans (raise _ _))
  · exact refl p

/-! Of the sequencer and the cutovers. -/

theorem decideAtIdle (p : Part) : p.Steady p.decideAtIdle := of_parts (by simp) (by simp) (by simp) (by simp)

theorem returnToIdle (p : Part) : p.Steady p.returnToIdle := of_parts (by simp) (by simp) (by simp) (by simp)

theorem discardSolve (p : Part) : p.Steady p.discardSolve := by
  unfold Part.discardSolve
  dsimp only
  split <;> exact of_parts (by simp) (by simp) (by simp) (by simp)

theorem cutoverEnded (cause : EndCause) (p : Part) : p.Steady (p.cutoverEnded cause) := by
  obtain ⟨rs, eq, -⟩ := p.cutoverEnded_eq cause
  rw [eq]
  exact of_blocks rfl rfl rfl rfl rfl rfl rfl rfl

end Part.Steady

/-- An allocation writes the zones' air and the bays' grants. -/
theorem Part.Standing.allocate (p : Part) : p.Standing p.allocate := by
  cases supply : p.afa.supply with
  | none =>
    unfold Part.allocate
    rw [supply]
    exact refl p
  | some f =>
    rw [allocate_eq supply]
    have climate : p.Steady (p.manned.foldl zoneClimate p) := .foldl (fun p tag => .zoneClimate tag p) _ p
    have granted : p.Standing (p.granted f) := by
      refine (climate.trans (.mapZones (g := fun z => { z with
          demand := (((airRows p).find? fun r => r.tag == z.tag).map AirRow.demand).getD 0
          grant := (lookupTag z.tag (zoneGrants (f - p.fm.m) (airRows p))).getD 0 }) _ (fun _ => rfl) fun _ => id)).standing.trans ?_
      refine mapNodes _ (fun _ r => ?_) (fun _ r => ?_) fun _ _ r _ h => ?_
      · split <;> rfl
      · split <;> rfl
      · split <;> exact h
    exact (granted.trans (Steady.handOverAll _ _).standing).trans (of_blocks rfl rfl rfl rfl)

end Sys2Proof.Machine

/-!
Conditions on the zone table, the cutover list and the grants: what has to be shown of one for every step to keep it.
-/
namespace Sys2Proof.Machine

/-- A condition `T` that every step keeps together with conditions `K` that it keeps: what is left to show is about the cutovers, the
commit, the allocation, the setup and the restarts. -/
structure TableKept (K T : Part → Prop) : Prop where
  steady : ∀ {p q : Part}, p.Steady q → T p → T q
  cut : ∀ {p : Part} (b : Nat), T p → T (p.cutBay b)
  shared : ∀ {p : Part}, p.fm.state = .running ∨ p.afa.timer.mayExpire p.fm.clock = true → T p → T p.allocate
  committed : ∀ {p : Part} {snap : Snapshot}, K p → p.rsq.seq = .solving → p.rsq.snapshot = some snap → T p →
    T ((p.commit (p.solveInput snap.edges).plan snap.edges).listing (p.commit (p.solveInput snap.edges).plan snap.edges).movingBays)
  unmoved : ∀ {p : Part} {snap : Snapshot}, K p → p.rsq.seq = .solving → p.rsq.snapshot = some snap → T p →
    (p.commit (p.solveInput snap.edges).plan snap.edges).movingBays = [] → T (p.commit (p.solveInput snap.edges).plan snap.edges)
  entered : ∀ {p q : Part} {snap : Snapshot}, K p → p.rsq.seq = .solving → p.rsq.snapshot = some snap → snap.initial = true →
    q.fm.state = p.fm.state → T q → T q.enterRunning
  cold : ∀ n, T { Part.cold with fresh := n }
  warm : ∀ {p : Part}, K p → T p → T p.warmRestart
  newFloor : ∀ {p : Part} {g : Grid} {bitmap : List Byte}, setupFieldFault g bitmap = none → K p → T p → T (p.setupFloor g bitmap)
  supplied : ∀ {p : Part} (budget interval : Nat), p.fm.state ≠ .unconfigured → T p → T (p.setSupply budget interval)

namespace TableKept
variable {K T : Part → Prop} (k : TableKept K T) {p : Part}
include k

theorem blocks {q : Part} (h : T p) (state : q.fm.state = p.fm.state) (bays : q.fm.bays = p.fm.bays) (grid : q.fm.grid = p.fm.grid)
    (nr : q.fm.nr = p.fm.nr) (zt : q.zt = p.zt) (list : q.cut.list = p.cut.list) (supply : q.afa.supply = p.afa.supply)
    (timer : q.afa.timer = p.afa.timer) : T q := k.steady (.of_blocks state bays grid nr zt list supply timer) h

theorem parts {q : Part} (h : T p) (fm : q.fm = p.fm) (zt : q.zt = p.zt) (cut : q.cut = p.cut) (afa : q.afa = p.afa) : T q :=
  k.steady (.of_parts fm zt cut afa) h

/-! ### The cutover -/

theorem cutBays (bs : List Nat) (h : T p) : T (p.cutBays bs) := by
  induction bs generalizing p with
  | nil => exact h
  | cons b bs ih => exact ih (p := p.cutBay b) (k.cut b h)

theorem allocateIfRunning (h : T p) : T p.allocateIfRunning := by
  unfold Part.allocateIfRunning
  split
  · next running => exact k.shared (.inl running) h
  · exact h
  · exact h

theorem completeCutover (cause : EndCause) (h : T p) : T (p.completeCutover cause) := by
  rw [Part.completeCutover_eq]
  exact k.steady ((Part.Steady.mapCut _ rfl).trans (.returnToIdle _)) (k.allocateIfRunning (k.steady (.cutoverEnded cause p) h))

theorem completeIfEmpty (cause : EndCause) (h : T p) : T (p.completeIfEmpty cause) := by
  unfold Part.completeIfEmpty
  split
  · exact k.completeCutover cause h
  · exact h

theorem cutRemaining (cause : EndCause) (h : T p) : T (p.cutRemaining cause) := k.completeIfEmpty cause (k.cutBays _ h)

theorem cutVisited (b : Nat) (h : T p) : T (p.cutVisited b) := k.completeIfEmpty .paced (k.cut b h)

/-- A cutover that has its list. -/
theorem startCutover (pacing : Pacing) (listed : List Nat) (h : T (p.listing listed)) : T (p.startCutover pacing listed) := by
  cases pacing with
  | block => exact k.cutRemaining .paced h
  | step =>
    exact k.steady (((Part.Steady.mapRsq (fun r => { r with seq := .cutting }) (p.listing listed))).trans (.mapCut (g := fun c =>
      { c with stepTimer := (p.listing listed).timerFor c.interval, deadline := .running c.limit }) _ rfl)) h
  | vacant =>
    exact k.completeIfEmpty .paced (k.cutBays _ (k.steady ((Part.Steady.mapRsq (fun r => { r with seq := .cutting }) (p.listing listed)).trans
      (.mapCut (g := fun c => { c with deadline := .running c.limit }) _ rfl)) h))

theorem handOff (pacing : Pacing) (listed : T (p.listing p.movingBays)) (unmoved : p.movingBays = [] → T p) : T (p.handOff pacing) := by
  unfold Part.handOff
  split
  · next none => exact k.steady (.returnToIdle p) (unmoved (List.isEmpty_iff.1 none))
  · exact k.startCutover pacing _ listed

theorem stepExpiry (h : T p) : T p.stepExpiry := by
  unfold Part.stepExpiry
  split
  · dsimp only
    split
    · exact k.completeCutover .paced (k.cutBays _ h)
    · exact k.steady (.mapCut _ rfl) (k.cutBays _ h)
  · exact h

theorem deadlineExpiry (h : T p) : T p.deadlineExpiry := by
  have passed : T (p.mapCut fun c => { c with deadline := .passed }) := k.steady (.mapCut p rfl) h
  unfold Part.deadlineExpiry
  split
  · split
    · dsimp only
      split
      · exact k.cutRemaining .deadline passed
      · exact passed
      · exact passed
    · exact h
  · exact h
  · exact h

theorem switched (h : T p) : T p.switched := by
  unfold Part.switched
  split
  · exact k.cutRemaining .switch h
  · exact k.steady (.mapCut p rfl) h
  · have stopped : T (p.mapCut fun c => { c with stepTimer := .stopped }) := k.steady (.mapCut p rfl) h
    dsimp only
    split
    · exact k.cutRemaining .switch stopped
    · exact k.completeIfEmpty .switch (k.cutBays _ stopped)

theorem setPacing (mode : Pacing) (interval limit : Nat) (h : T p) : T (p.setPacing mode interval limit) := by
  by_cases cutting : p.rsq.seq = .cutting
  · obtain ⟨d, n, -, eq⟩ := Part.setPacing_of_cutting mode interval limit cutting
    rw [eq]
    exact k.switched (k.blocks h rfl rfl rfl rfl rfl rfl rfl rfl)
  · rw [Part.setPacing_of_not_cutting mode interval limit cutting]
    exact k.steady (.mapCut p rfl) h

/-! ### Transactions -/

theorem failed (b : Nat) (cause : FailureCause) (h : T p) : T (p.failed b cause) := by
  have noted (failures : BayRec → Nat) (health : BayRec → Health) : p.Steady (p.modifyNode b fun r =>
      { r with lastFailure := some cause, failures := failures r, health := health r }) :=
    .modifyNode b p (fun _ => rfl) (fun _ => rfl) (fun _ => rfl) fun _ _ _ lit => lit
  unfold Part.failed
  split
  · split
    · split
      · exact k.steady (noted (·.failures + 1) BayRec.health) h
      · show T (Part.silentVisit b _)
        have told := k.steady ((noted (fun _ => 3) fun _ => .silent).trans ((Part.Steady.raise (.nodeSilent b cause) _).trans (.clearCandidates b _))) h
        rw [Part.silentVisit_eq]
        split
        · exact k.cutVisited b told
        · exact told
    · exact k.steady (noted BayRec.failures BayRec.health) h
  · exact h

theorem validPoll (b : Nat) (reply : PollReply) (h : T p) : T (p.validPoll b reply) := by
  have contacted := ((Part.Steady.polled b reply p).trans (.contacts b reply.east reply.south _))
  have told (key : Option Key) : T (((p.polled b reply).contacts b reply.east reply.south).tellLighting b reply.inputs.occupied key) :=
    k.steady (contacted.trans (.tellLighting b _ key _)) h
  unfold Part.validPoll
  dsimp only
  rw [Part.vacantVisit_eq]
  split
  · exact k.cutVisited b (told _)
  · exact told _

/-! ### The completion of a solve -/

theorem completeSolve (background : K p) (h : T p) : T p.completeSolve := by
  unfold Part.completeSolve
  split
  · next snap solving held =>
    by_cases changed : p.pmon.changed = true
    · rw [if_pos changed]
      exact k.steady (.discardSolve p) h
    · rw [if_neg changed]
      dsimp only
      have handed (pacing : Pacing) := k.handOff pacing (k.committed background solving held h) (k.unmoved background solving held h)
      by_cases initial : snap.initial = true
      · rw [if_pos initial]
        refine k.entered background solving held initial ?_ (handed .block)
        exact ((Part.Keeps.commit _ _ p).trans (.handOff _ _)).state
      · rw [if_neg initial]
        exact handed _
  · exact h

/-! ### Every step -/

theorem stepKept (base : StepKept K) : StepKept fun p => K p ∧ T p where
  link u := fun ⟨hK, h⟩ => ⟨base.link u hK, k.parts h rfl rfl rfl rfl⟩
  wire bus slot := fun ⟨hK, h⟩ => ⟨base.wire bus slot hK, k.steady (.mapCbm _ _) h⟩
  grant := fun ⟨hK, h⟩ => ⟨base.grant hK, k.steady (.arbitrate _) h⟩
  round := fun ⟨hK, h⟩ => ⟨base.round hK, k.steady (.round _) h⟩
  failed b cause := fun ⟨hK, h⟩ => ⟨base.failed b cause hK, k.failed b cause h⟩
  polled b reply := fun ⟨hK, h⟩ => ⟨base.polled b reply hK, k.validPoll b reply h⟩
  driven b sent := fun ⟨hK, h⟩ => ⟨base.driven b sent hK, k.steady (.validDrive b sent _) h⟩
  quiet := fun ⟨hK, h⟩ => ⟨base.quiet hK, k.steady (.quietExpiry _) h⟩
  solved := fun ⟨hK, h⟩ => ⟨base.solved hK, k.completeSolve hK h⟩
  stepped := fun ⟨hK, h⟩ => ⟨base.stepped hK, k.stepExpiry h⟩
  overdue := fun ⟨hK, h⟩ => ⟨base.overdue hK, k.deadlineExpiry h⟩
  vacated tag := fun ⟨hK, h⟩ => ⟨base.vacated tag hK, k.steady (.vacancyExpiry tag _) h⟩
  faded := fun ⟨hK, h⟩ => ⟨base.faded hK, k.steady (.fadeTick _) h⟩
  shared may := fun ⟨hK, h⟩ => ⟨base.shared may hK, k.shared (.inr may) h⟩
  ticked := fun ⟨hK, h⟩ => ⟨base.ticked hK, k.blocks h rfl rfl rfl rfl rfl rfl rfl rfl⟩
  cold n := ⟨base.cold n, k.cold n⟩
  warm := fun ⟨hK, h⟩ => ⟨base.warm hK, k.warm hK h⟩
  request {p q} effect := fun ⟨hK, h⟩ => by
    refine ⟨base.request effect hK, ?_⟩
    cases effect with
    | reads => exact h
    | draws => exact k.parts h rfl rfl rfl rfl
    | setupFloor g bitmap considered valid =>
      have built := k.newFloor valid hK h
      unfold Part.kickBus
      split
      · exact k.steady (.arbitrate _) built
      all_goals exact built
    | takeRoles rl bays floor steady valid =>
      have written : p.Steady (p.mapFm fun f => { f with rl := rl, spine := spineOf bays }) := .of_blocks rfl rfl rfl rfl rfl rfl rfl rfl
      rw [Part.takeRoles_eq]
      split
      · exact k.steady (written.trans ((Part.Steady.mapPmon _ _).trans (.notice _))) h
      · exact k.steady written h
    | setAuto auto qt =>
      unfold Part.setAuto
      dsimp only
      split
      · exact k.steady ((Part.Steady.mapPmon _ p).trans (.notice _)) h
      · exact k.steady (.mapPmon _ p) h
    | startSolve running idle => exact k.parts h rfl rfl rfl rfl
    | askSolve => exact k.steady (.mapRsq _ p) h
    | setPacing mode interval limit => exact k.setPacing mode interval limit h
    | hasten => exact k.cutRemaining .hasten h
    | setSupply budget interval floor => exact k.supplied budget interval floor h
    | setZone tag requested =>
      exact k.steady ((Part.Steady.modifyZone (g := fun z => { z with settings := requested.clamped }) tag p (fun _ => rfl)
        fun _ _ => requested.clamped_valid).trans (.retargetZone tag _)) h
    | overrides entries =>
      exact k.steady (.applyOverrides entries p) h
    | pins pins room => exact k.steady (.pins p room) h
    | mask mask => exact k.parts h rfl rfl rfl rfl
    | owes o => exact k.parts h rfl rfl rfl rfl

end TableKept

end Sys2Proof.Machine

/-!
Zones and levels in range, kept by every step (R86, R87, R92, R104, R129).
-/
namespace Sys2Proof.Machine

/-! ### The zone table's operations -/

theorem nextFreeTag_range (used : List Nat) (fuel : Nat) {t : Nat} (low : 1 ≤ t ∧ t ≤ 250) :
    1 ≤ nextFreeTag used fuel t ∧ nextFreeTag used fuel t ≤ 250 := by
  induction fuel generalizing t with
  | zero => exact low
  | succ fuel ih =>
    unfold nextFreeTag
    split
    · exact ih (by split <;> omega)
    · exact low

theorem tagAfter_range {t : Nat} (low : 1 ≤ t ∧ t ≤ 250) : 1 ≤ tagAfter t ∧ tagAfter t ≤ 250 := by
  unfold tagAfter
  split <;> omega

theorem fillFree_length (z : Zone) (slots : List (Option Zone)) : (fillFree z slots).length = slots.length := by
  induction slots with
  | nil => rfl
  | cons o slots ih =>
    cases o with
    | none => rfl
    | some y => exact congrArg (· + 1) ih

theorem mem_fillFree {z y : Zone} {slots : List (Option Zone)} (mem : some y ∈ fillFree z slots) : y = z ∨ some y ∈ slots := by
  induction slots with
  | nil => cases mem
  | cons o slots ih =>
    cases o with
    | none =>
      rcases List.mem_cons.1 mem with same | later
      · exact .inl (Option.some.inj same)
      · exact .inr (List.mem_cons_of_mem _ later)
    | some x =>
      rcases List.mem_cons.1 mem with same | later
      · exact .inr (same ▸ List.mem_cons_self)
      · exact (ih later).imp_right (List.mem_cons_of_mem _)

theorem Zt.mem_zones {t : Zt} {z : Zone} : z ∈ t.zones ↔ some z ∈ t.slots := by simp [zones]

theorem Settings.setup_valid : SettingsValid .setup := by
  unfold SettingsValid
  decide

theorem Zt.Valid.allocate {t : Zt} (h : t.Valid) (parent : Nat) : (t.allocate parent).1.Valid := by
  obtain ⟨slots, counter, zones, pins⟩ := h
  have tag := nextFreeTag_range (t.zones.map Zone.tag) 250 counter
  unfold Zt.allocate
  refine ⟨?_, tagAfter_range tag, fun z mem => ?_, pins⟩
  · show (t.slots.take 1 ++ fillFree _ (t.slots.drop 1)).length = 64
    rw [List.length_append, fillFree_length, ← List.length_append, List.take_append_drop, slots]
  · rcases List.mem_append.1 (mem_zones.1 mem) with first | later
    · exact zones z (mem_zones.2 (List.mem_of_mem_take first))
    · rcases mem_fillFree later with rfl | old
      · refine ⟨tag.2, ?_⟩
        show SettingsValid (match t.zone? parent with | some z => z.settings | none => .setup)
        cases held : t.zone? parent with
        | none => exact Settings.setup_valid
        | some y => exact (zones y (mem_zones_of_zone? held)).2
      · exact zones z (mem_zones.2 (List.mem_of_mem_drop old))

theorem Zt.Valid.allocateAll {t : Zt} (h : t.Valid) (admitted : List (Component × Nat)) : (t.allocateAll admitted).1.Valid := by
  induction admitted generalizing t with
  | nil => exact h
  | cons a rest ih => exact ih (h.allocate a.2)

theorem Zt.Valid.dropped {t : Zt} (h : t.Valid) {keep : Zone → Bool} {pins : List Pin} (fewer : pins.length ≤ t.pins.length) :
    ({ t with slots := t.slots.map fun o => o.filter keep, pins := pins } : Zt).Valid := by
  obtain ⟨slots, counter, zones, room⟩ := h
  refine ⟨(List.length_map _).trans slots, counter, fun z mem => ?_, fewer.trans room⟩
  obtain ⟨o, held, eq⟩ := List.mem_map.1 (mem_zones.1 mem)
  obtain ⟨same, -⟩ := Option.filter_eq_some_iff.1 eq
  exact zones z (mem_zones.2 (same ▸ held))

/-! ### The part's operations -/

theorem ZonesValid.mapZt {p : Part} (h : ZonesValid p) {g : Zt → Zt} (valid : p.zt.Valid → (g p.zt).Valid) : ZonesValid (p.mapZt g) := by
  rw [zonesValid_iff] at h ⊢
  exact ⟨valid h.1, h.2⟩

theorem ZonesValid.mapNodes {p : Part} (h : ZonesValid p) {g : Nat → BayRec → BayRec} (lit : ∀ b r, r.Lit → (g b r).Lit) :
    ZonesValid (p.mapFm (·.mapNodes g)) := by
  rw [zonesValid_iff] at h ⊢
  refine ⟨h.1, fun b r node => ?_⟩
  rw [Part.mapFm_fm, FloorModel.node?_mapNodes, Option.map_eq_some_iff] at node
  obtain ⟨r', node', rfl⟩ := node
  exact lit b r' (h.2 b r' node')

theorem ZonesValid.mapZones {p : Part} (h : ZonesValid p) {g : Zone → Zone} (tag : ∀ z, (g z).tag = z.tag)
    (settings : ∀ z, (g z).settings = z.settings) : ZonesValid (p.mapZt (·.mapZones g)) :=
  h.mapZt fun t => t.mapZones fun z low valid => ⟨(tag z).symm ▸ low, (settings z).symm ▸ valid⟩

theorem ZonesValid.modifyZone {p : Part} (h : ZonesValid p) {g : Zone → Zone} (named : Nat) (tag : ∀ z, (g z).tag = z.tag)
    (settings : ∀ z, (g z).settings = z.settings) : ZonesValid (p.mapZt (·.modifyZone named g)) := by
  refine h.mapZones (fun z => ?_) fun z => ?_
  · exact (apply_ite Zone.tag _ _ _).trans (by rw [tag, ite_self])
  · exact (apply_ite Zone.settings _ _ _).trans (by rw [settings, ite_self])

theorem ZonesValid.setCounts {p : Part} (h : ZonesValid p) : ZonesValid p.setCounts := h.mapZones (fun _ => rfl) fun _ => rfl

theorem ZonesValid.listing {p : Part} (h : ZonesValid p) (listed : List Nat) : ZonesValid (p.listing listed) := h

theorem ZonesValid.freeZone {p : Part} (h : ZonesValid p) (tag : Nat) : ZonesValid (p.freeZone tag) := by
  have freed : ZonesValid (p.mapZt fun t => { t.dropZone tag with pins := t.pins.filter fun x => x.tag != tag }) :=
    h.mapZt fun t => t.dropped (List.length_filter_le ..)
  refine (Part.Steady.of_parts ?_ ?_ ?_ ?_).standing.valid freed <;> simp [Part.freeZone]

theorem ZonesValid.recounted {p : Part} (h : ZonesValid p) (old new : Nat) : ZonesValid (p.recounted old new) := by
  have left := h.modifyZone (g := Zone.left) old (fun _ => rfl) fun _ => rfl
  have joined := left.modifyZone (g := Zone.joined p.fm.clock) new (Zone.joined_tag _) fun z => by
    unfold Zone.joined
    dsimp only
    split <;> rfl
  exact (joined.modifyZone (g := fun z => { z with anchor := (p.fm.membersOf old).head? }) old (fun _ => rfl) fun _ => rfl).modifyZone
    (g := fun z => { z with anchor := (p.fm.membersOf new).head? }) new (fun _ => rfl) fun _ => rfl

theorem ZonesValid.zoneCounts {p : Part} (h : ZonesValid p) (old new : Nat) : ZonesValid (p.zoneCounts old new) := by
  have counted := h.recounted old new
  rw [Part.zoneCounts_eq]
  split
  · split
    · exact counted.freeZone old
    · exact counted
  · exact counted

theorem ZonesValid.retargetBay {p : Part} (h : ZonesValid p) (b : Nat) : ZonesValid (p.retargetBay b) := by
  unfold Part.retargetBay
  split
  · split
    · next z zone =>
      exact h.mapNodes fun b' r lit => by
        split
        · exact lit.retargeted (((zonesValid_iff p).1 h).1.target_le zone)
        · exact lit
    · exact h
  · exact h

theorem ZonesValid.cutBay {p : Part} (h : ZonesValid p) (b : Nat) : ZonesValid (p.cutBay b) := by
  by_cases moving : ∃ r n, p.fm.node? b = some r ∧ r.nextTag = some n
  · obtain ⟨r, n, node, next⟩ := moving
    rw [Part.cutBay_of_moving node next]
    have arrived : ZonesValid ((p.unlist b).modifyNode b (BayRec.arrived n)) := ZonesValid.mapNodes (p := p.unlist b) h fun b' r lit => by
      split <;> exact lit
    exact (arrived.zoneCounts r.tag n).retargetBay b
  · rw [Part.cutBay_of_still fun r n node next => moving ⟨r, n, node, next⟩]
    exact h

theorem ZonesValid.retire {p : Part} (h : ZonesValid p) (tag : Nat) : ZonesValid (p.retire tag) := by
  unfold Part.retire
  split
  · split
    · exact h.freeZone tag
    · exact h.modifyZone (g := fun z => { z with life := .retiring }) tag (fun _ => rfl) fun _ => rfl
  · exact h

theorem ZonesValid.zoned {p : Part} (h : ZonesValid p) (plan : Plan) : ZonesValid (p.zoned plan) := by
  have allocated : ZonesValid { p with zt := ((p.zt.mapZones fun z => { z with parent := none }).allocateAll plan.admitted).1 } :=
    h.mapZt (g := fun t => ((t.mapZones fun z => { z with parent := none }).allocateAll plan.admitted).1) fun t =>
      (t.mapZones (g := fun z => { z with parent := none }) fun _ low valid => ⟨low, valid⟩).allocateAll _
  have retired (tags : List Nat) {q : Part} (h : ZonesValid q) : ZonesValid (tags.foldl Part.retire q) := by
    induction tags generalizing q with
    | nil => exact h
    | cons tag tags ih => exact ih (h.retire tag)
  have planned := (retired plan.retiring allocated).mapNodes (g := BayRec.planned plan (p.tagsGiven plan)) fun _ _ lit => lit
  exact (planned.setCounts.modifyZone (g := fun z => { z with foldedBays := plan.overflowBays }) 0
    (fun _ => rfl) fun _ => rfl)

theorem ZonesValid.commit {p : Part} (h : ZonesValid p) (plan : Plan) (edges : List EdgeState) : ZonesValid (p.commit plan edges) := by
  rw [Part.commit_eq]
  refine (Part.Steady.of_parts ?_ ?_ ?_ ?_).standing.valid (h.zoned plan) <;> simp

theorem ZonesValid.enterRunning {p : Part} (h : ZonesValid p) : ZonesValid p.enterRunning := by
  have lit := ((Part.Steady.lightFloor p).standing.trans (.allocate _)).valid h
  refine (Part.Steady.of_parts (q := p.lightFloor.allocate.joinAll) ?_ ?_ ?_ ?_).standing.valid lit <;> simp

theorem ZonesValid.cold (n : Nat) : ZonesValid { Part.cold with fresh := n } := by
  obtain ⟨-, -, zones, -⟩ := invariantsHoldAtReset
  exact zones

theorem ZonesValid.restarted {p : Part} (h : ZonesValid p) : ZonesValid p.restarted := by
  rw [zonesValid_iff] at h ⊢
  refine ⟨?_, fun b r node => ?_⟩
  · have kept : p.zt.restarted = ({ p.zt with
        slots := p.zt.slots.map fun o => o.filter fun z => z.life != .born
        pins := p.zt.restarted.pins } : Zt).mapZones Zone.restarted := by
      unfold Zt.restarted Zt.mapZones
      simp
    show (p.zt.restarted.mapZones (Zone.relit p.fm.state p.fm.clock)).Valid
    rw [kept]
    have dropped := h.1.dropped (keep := fun z => z.life != .born) (pins := p.zt.restarted.pins) (List.length_filter_le ..)
    refine Zt.Valid.mapZones (dropped.mapZones (g := Zone.restarted) fun _ low valid => ⟨low, valid⟩) fun z low valid => ?_
    unfold Zone.relit
    dsimp only
    split <;> exact ⟨low, valid⟩
  · rw [show p.restarted.fm = p.fm.restarted from rfl, FloorModel.restarted_node?, Option.map_eq_some_iff] at node
    obtain ⟨r', node', rfl⟩ := node
    exact h.2 b r' node'

theorem Part.Steady.warmRestart (p : Part) : p.restarted.Steady p.warmRestart := by
  have lit : p.restarted.Steady p.restarted.retargetRunning := by
    unfold retargetRunning
    split
    · exact retargetAll _
    · exact refl _
    · exact refl _
  exact lit.trans (decideAtIdle _)

theorem ZonesValid.setupFloor (p : Part) (g : Grid) (bitmap : List Byte) : ZonesValid (p.setupFloor g bitmap) := by
  rw [zonesValid_iff]
  refine ⟨⟨rfl, ⟨Nat.le_refl 1, Nat.le_add_left 1 249⟩, fun z mem => ?_, Nat.zero_le _⟩, fun b r node => ?_⟩
  · have only : some z ∈ some (Zone.floorZone (p.fm.setup g bitmap).nr (p.fm.setup g bitmap).m (p.fm.setup g bitmap).roomable.head?)
        :: List.replicate 63 none := Zt.mem_zones.1 mem
    rcases List.mem_cons.1 only with same | later
    · cases same
      exact ⟨Nat.zero_le _, Settings.setup_valid⟩
    · cases List.eq_of_mem_replicate later
  · rw [show (p.setupFloor g bitmap).fm = p.fm.setup g bitmap from rfl, FloorModel.setup_node?] at node
    split at node
    · cases node
      exact ⟨nofun, nofun⟩
    · cases node

theorem Part.supplied_steady_zones (budget interval : Nat) (p : Part) : p.Standing (p.setSupply budget interval) := by
  have written : p.Standing (p.supplied budget interval) := .of_blocks rfl rfl rfl rfl
  cases state : p.fm.state with
  | running =>
    rw [setSupply_of_running _ _ state]
    exact written.trans (.allocate _)
  | survey => rwa [setSupply_of_survey _ _ state]
  | unconfigured =>
    have unset : p.setSupply budget interval = p.supplied budget interval := by
      show (match p.fm.state with | .running => _ | .survey => _ | .unconfigured => _) = _
      rw [state]
      rfl
    rwa [unset]

theorem zonesValid_tableKept : TableKept (fun _ => True) ZonesValid where
  steady same h := same.standing.valid h
  cut b h := h.cutBay b
  shared _ h := (Part.Standing.allocate _).valid h
  committed _ _ _ h := (h.commit _ _).listing _
  unmoved _ _ _ h _ := h.commit _ _
  entered _ _ _ _ _ h := h.enterRunning
  cold n := .cold n
  warm _ h := (Part.Steady.warmRestart _).standing.valid h.restarted
  newFloor _ _ _ := .setupFloor ..
  supplied budget interval _ h := (Part.supplied_steady_zones budget interval _).valid h

/-- What every step keeps without more. -/
theorem stepKept_true : StepKept fun _ => True := by constructor <;> intros <;> trivial

theorem zonesValid_stepKept : StepKept ZonesValid := by
  have kept := zonesValid_tableKept.stepKept stepKept_true
  simpa only [true_and] using kept

end Sys2Proof.Machine

/-!
The cutover list and the sequencer (R110, R111): the list is empty unless the sequencer is CUTTING, which it is only while the floor is
RUNNING.
-/
namespace Sys2Proof.Machine

/-- R110, R111: when there may be a cutover list, and when the sequencer may be CUTTING. -/
def Sequenced (p : Part) : Prop := (p.rsq.seq ≠ .cutting → p.cut.list = []) ∧ (p.rsq.seq = .cutting → p.fm.state = .running)

namespace Sequenced
variable {p q : Part}

theorem of_same (h : Sequenced p) (state : q.fm.state = p.fm.state) (seq : q.rsq.seq = p.rsq.seq) (list : q.cut.list = p.cut.list) :
    Sequenced q := by
  rw [Sequenced, state, seq, list]
  exact h

/-- The operations that leave the sequencer and the list. -/
theorem of_steady (h : Sequenced p) (same : p.Steady q) (rsq : q.rsq = p.rsq) : Sequenced q :=
  h.of_same same.standing.state (by rw [rsq]) same.standing.list

theorem of_cutting (running : p.fm.state = .running) (cutting : p.rsq.seq = .cutting) : Sequenced p :=
  ⟨fun other => absurd cutting other, fun _ => running⟩

theorem of_empty (list : p.cut.list = []) (notCutting : p.rsq.seq ≠ .cutting) : Sequenced p :=
  ⟨fun _ => list, fun cutting => absurd cutting notCutting⟩

theorem startSolve (h : Sequenced p) (notCutting : p.rsq.seq ≠ .cutting) : Sequenced p.startSolve :=
  of_empty (h.1 notCutting) nofun

theorem notice (h : Sequenced p) : Sequenced p.notice := by
  unfold Part.notice
  split
  · next due => exact h.startSolve (by rw [due.2.2.2]; exact nofun)
  · exact h

theorem decideAtIdle (h : Sequenced p) (notCutting : p.rsq.seq ≠ .cutting) : Sequenced p.decideAtIdle := by
  unfold Part.decideAtIdle
  split
  · exact h.startSolve notCutting
  · exact h

theorem returnToIdle (list : p.cut.list = []) : Sequenced p.returnToIdle := by
  refine of_empty ?_ p.returnToIdle_seq
  rw [Part.returnToIdle_cut]
  exact list

/-! ### The cutover -/

theorem completeCutover (cause : EndCause) (list : p.cut.list = []) : Sequenced (p.completeCutover cause) := by
  refine of_empty ?_ (p.completeCutover_seq cause)
  rw [Part.completeCutover_cut]
  exact list

theorem completeIfEmpty (cause : EndCause) (running : p.fm.state = .running) (cutting : p.rsq.seq = .cutting) :
    Sequenced (p.completeIfEmpty cause) := by
  unfold Part.completeIfEmpty
  split
  · next none => exact completeCutover cause (List.isEmpty_iff.1 none)
  · exact of_cutting running cutting

theorem cutRemaining (cause : EndCause) (p : Part) : Sequenced (p.cutRemaining cause) :=
  of_empty (by rw [Part.cutRemaining_cut]; rfl) (Part.cutRemaining_seq cause _)

theorem cutVisited (b : Nat) (running : p.fm.state = .running) (cutting : p.rsq.seq = .cutting) : Sequenced (p.cutVisited b) :=
  completeIfEmpty .paced ((Part.Keeps.cutBay b p).state.trans running) (by rw [Part.cutBay_rsq]; exact cutting)

/-- A VACANT cutover over several bays. -/
theorem cutSome (cause : EndCause) (bs : List Nat) (running : p.fm.state = .running) (cutting : p.rsq.seq = .cutting) :
    Sequenced ((p.cutBays bs).completeIfEmpty cause) :=
  completeIfEmpty cause ((Part.Keeps.cutBays bs p).state.trans running) (by rw [Part.cutBays_rsq]; exact cutting)

theorem handOff {pacing : Pacing} (list : p.cut.list = []) (may : pacing = .block ∨ p.fm.state = .running) :
    Sequenced (p.handOff pacing) := by
  unfold Part.handOff
  split
  · exact returnToIdle list
  · cases pacing with
    | block => exact cutRemaining .paced _
    | step => exact of_cutting (may.resolve_left nofun) rfl
    | vacant => exact cutSome .paced _ (may.resolve_left nofun) rfl

theorem stepExpiry (h : Sequenced p) : Sequenced p.stepExpiry := by
  unfold Part.stepExpiry
  split
  · dsimp only
    split
    · next none => exact completeCutover .paced (List.isEmpty_iff.1 none)
    · next left =>
      have cutting : p.rsq.seq = .cutting := by
        by_contra other
        refine left (List.isEmpty_iff.2 ?_)
        obtain ⟨run, cut⟩ := p.cutBays_cut_shape (p.cut.list.take 1)
        rw [cut]
        show p.cut.list.filter _ = []
        rw [h.1 other]
        rfl
      have state : (p.cutBays (p.cut.list.take 1)).fm.state = .running := (Part.Keeps.cutBays _ p).state.trans (h.2 cutting)
      have seq : (p.cutBays (p.cut.list.take 1)).rsq.seq = .cutting := (congrArg Rsq.seq (Part.cutBays_rsq ..)).trans cutting
      exact of_cutting state seq
  · exact h

theorem deadlineExpiry (h : Sequenced p) : Sequenced p.deadlineExpiry := by
  unfold Part.deadlineExpiry
  split
  · split
    · dsimp only
      split
      · exact cutRemaining .deadline _
      · exact h
      · exact h
    · exact h
  · exact h
  · exact h

theorem setPacing (mode : Pacing) (interval limit : Nat) (h : Sequenced p) : Sequenced (p.setPacing mode interval limit) := by
  by_cases cutting : p.rsq.seq = .cutting
  · obtain ⟨d, n, -, eq⟩ := Part.setPacing_of_cutting mode interval limit cutting
    rw [eq]
    unfold Part.switched
    split
    · exact cutRemaining .switch _
    · exact h
    · dsimp only
      split
      · exact cutRemaining .switch _
      · exact cutSome .switch _ (h.2 cutting) cutting
  · rw [Part.setPacing_of_not_cutting mode interval limit cutting]
    exact h

/-! ### Transactions -/

theorem silentVisit (b : Nat) (h : Sequenced p) : Sequenced (p.silentVisit b) := by
  rw [Part.silentVisit_eq]
  split
  · next due => exact cutVisited b (h.2 due.1) due.1
  · exact h

theorem failed (b : Nat) (cause : FailureCause) (h : Sequenced p) : Sequenced (p.failed b cause) := by
  unfold Part.failed
  split
  · split
    · split
      · exact h
      · exact silentVisit b (h.of_same (by rw [Part.clearCandidates_fm]; rfl) (by rw [Part.clearCandidates_rsq]; rfl)
          (by rw [Part.clearCandidates_cut]; rfl))
    · exact h
  · exact h

theorem validPoll (b : Nat) (reply : PollReply) (h : Sequenced p) : Sequenced (p.validPoll b reply) := by
  have contacted := ((Part.Steady.polled b reply p).trans (.contacts b reply.east reply.south _))
  unfold Part.validPoll
  dsimp only
  rw [Part.vacantVisit_eq]
  have told (key : Option Key) : Sequenced (((p.polled b reply).contacts b reply.east reply.south).tellLighting b reply.inputs.occupied key) :=
    h.of_steady (contacted.trans (.tellLighting b _ key _)) (by
      rw [(Part.SameMonitor.tellLighting b _ key _).rsq]
      simp [Part.polled])
  split
  · next due => exact cutVisited b ((told _).2 due.1) due.1
  · exact told _

theorem endSurvey (h : Sequenced p) (survey : p.fm.state = .survey) : Sequenced p.endSurvey := by
  have notCutting : p.rsq.seq ≠ .cutting := fun cutting => nomatch survey.symm.trans (h.2 cutting)
  exact of_empty (by rw [Part.endSurvey_cut]; exact h.1 notCutting) nofun

theorem countRound {rounds : Nat} (h : Sequenced p) : Sequenced (p.mapFm fun f => { f with surveyRounds := rounds }) := h

theorem enterRunning (list : p.cut.list = []) (notCutting : p.rsq.seq ≠ .cutting) : Sequenced p.enterRunning := by
  refine of_empty ?_ (by rw [p.enterRunning_monitor.2]; exact notCutting)
  have same := ((Part.Steady.lightFloor p).standing.trans (.allocate _)).list
  show p.lightFloor.allocate.joinAll.cut.list = []
  rw [Part.joinAll_cut, same, list]

end Sequenced

theorem Part.validDrive_rsq (b : Nat) (sent : Pair) (p : Part) : (p.validDrive b sent).rsq = p.rsq := by
  unfold validDrive
  dsimp only
  split
  · split <;> rfl
  · rfl

theorem Part.setSupply_rsq (budget interval : Nat) (p : Part) : (p.setSupply budget interval).rsq = p.rsq := by
  show (match p.fm.state with
    | .running => (p.supplied budget interval).allocate
    | .survey => p.supplied budget interval
    | .unconfigured => p.supplied budget interval).rsq = p.rsq
  split
  · exact allocate_rsq _
  · rfl
  · rfl

theorem Part.applyOverrides_rsq (xs : List (Nat × Nat)) (p : Part) : (p.applyOverrides xs).1.rsq = p.rsq := by
  induction xs generalizing p with
  | nil => rfl
  | cons x xs ih =>
    unfold applyOverrides
    by_cases good : p.GoodEntry x
    · rw [badEntry_of_good good]
      refine (ih (p.applyOverride x)).trans ?_
      unfold applyOverride
      split
      · exact rewriteEdge_rsq ..
      · rfl
    · rw [badEntry_of_bad good]

/-! ### The completion of a solve -/

theorem Part.commit_cut (plan : Plan) (edges : List EdgeState) (p : Part) : (p.commit plan edges).cut = p.cut := by
  rw [commit_eq, raiseAll_cut]
  exact (p.zoned_blocks plan).2.2.1

/-- R81: a BLOCK-paced hand-off ends with the list empty and the sequencer not CUTTING. -/
theorem Part.handOff_block_over {p : Part} (list : p.cut.list = []) :
    (p.handOff .block).cut.list = [] ∧ (p.handOff .block).rsq.seq ≠ .cutting := by
  unfold handOff
  split
  · exact ⟨(congrArg Cut.list p.returnToIdle_cut).trans list, p.returnToIdle_seq⟩
  · have empty : ((p.listing p.movingBays).cutRemaining .paced).cut.list = [] := by
      rw [cutRemaining_cut]
      rfl
    exact ⟨empty, cutRemaining_seq .paced _⟩

theorem Sequenced.completeSolve {p : Part} (net : NetChangeLaws p) (h : Sequenced p) : Sequenced p.completeSolve := by
  unfold Part.completeSolve
  split
  · next snap solving held =>
    have list : p.cut.list = [] := h.1 (by rw [solving]; exact nofun)
    split
    · have dropped : Sequenced ((p.mapRsq fun r => { r with seq := .idle, snapshot := none }).raise .solveDiscarded) :=
        of_empty list nofun
      unfold Part.discardSolve
      dsimp only
      split
      · exact dropped.startSolve nofun
      · exact dropped.decideAtIdle nofun
      · exact dropped.decideAtIdle nofun
    · dsimp only
      have committed (plan : Plan) : (p.commit plan snap.edges).cut.list = [] := by rw [Part.commit_cut, list]
      split
      · obtain ⟨empty, notCutting⟩ := Part.handOff_block_over (committed (p.solveInput snap.edges).plan)
        exact enterRunning empty notCutting
      · next later =>
        obtain ⟨floor, survey, -⟩ := ((netChangeLaws_iff p).1 net).2.2.2 snap held solving
        refine handOff (committed _) (.inr ?_)
        rw [(Part.Keeps.commit _ _ p).state]
        cases state : p.fm.state with
        | unconfigured => exact absurd state floor
        | survey => exact absurd (survey.2 state) later
        | running => rfl
  · exact h

/-! ### Every step -/

/-- R36: a grant or a round's end starts a solve only from the survey. -/
theorem Sequenced.of_round {p q : Part} (h : Sequenced p)
    (cases : (∃ rounds cbm, q = { p with cbm := cbm, fm := { p.fm with surveyRounds := rounds } })
      ∨ (SurveyEndsNext p ∧ ∃ cbm, q = { (p.mapFm fun f => { f with surveyRounds := f.surveyRounds + 1 }).endSurvey with cbm := cbm })) :
    Sequenced q := by
  obtain ⟨rounds, cbm, rfl⟩ | ⟨ends, cbm, rfl⟩ := cases
  · exact h
  · have counted : Sequenced (p.mapFm fun f => { f with surveyRounds := f.surveyRounds + 1 }) := h
    exact counted.endSurvey ends.1

theorem sequenced_stepKept : StepKept fun p => NetChangeLaws p ∧ Sequenced p := by
  have base : StepKept NetChangeLaws := netChangeLaws_kept.stepKept
  exact {
    link := fun u ⟨hN, h⟩ => ⟨base.link u hN, h⟩
    wire := fun bus slot ⟨hN, h⟩ => ⟨base.wire bus slot hN, h⟩
    grant := fun ⟨hN, h⟩ => ⟨base.grant hN, h.of_round (Part.arbitrate_cases _)⟩
    round := fun {p} ⟨hN, h⟩ => ⟨base.round hN, by
      have counted := h.of_round p.completeRound_cases
      rw [p.completeRound.arbitrateAfterHold_sameButCbm]
      exact counted⟩
    failed := fun b cause ⟨hN, h⟩ => ⟨base.failed b cause hN, h.failed b cause⟩
    polled := fun b reply ⟨hN, h⟩ => ⟨base.polled b reply hN, h.validPoll b reply⟩
    driven := fun b sent ⟨hN, h⟩ => ⟨base.driven b sent hN, h.of_steady (.validDrive b sent _) (Part.validDrive_rsq b sent _)⟩
    quiet := fun {p} ⟨hN, h⟩ => ⟨base.quiet hN, by
      unfold Part.quietExpiry
      split
      · exact Sequenced.notice (p := p.mapPmon _) h
      · exact h⟩
    solved := fun ⟨hN, h⟩ => ⟨base.solved hN, h.completeSolve hN⟩
    stepped := fun ⟨hN, h⟩ => ⟨base.stepped hN, h.stepExpiry⟩
    overdue := fun ⟨hN, h⟩ => ⟨base.overdue hN, h.deadlineExpiry⟩
    vacated := fun tag ⟨hN, h⟩ =>
      ⟨base.vacated tag hN, h.of_steady (.vacancyExpiry tag _) (Part.SameMonitor.vacancyExpiry tag _).rsq⟩
    faded := fun ⟨hN, h⟩ => ⟨base.faded hN, h.of_steady (.fadeTick _) (Part.SameMonitor.fadeTick _).rsq⟩
    shared := fun {p} may ⟨hN, h⟩ => ⟨base.shared may hN, h.of_same (Part.Standing.allocate p).state
      (by rw [Part.allocate_rsq]) (Part.Standing.allocate p).list⟩
    ticked := fun ⟨hN, h⟩ => ⟨base.ticked hN, h⟩
    cold := fun n => ⟨base.cold n, .of_empty rfl nofun⟩
    warm := fun {p} ⟨hN, h⟩ => ⟨base.warm hN, by
      rw [Part.warmRestart_shape]
      refine .of_empty rfl ?_
      show (if _ then _ else _ : Rsq).seq ≠ _
      split <;> exact nofun⟩
    request := fun {p q} effect ⟨hN, h⟩ => ⟨base.request effect hN, by
      cases effect with
      | reads => exact h
      | draws => exact h
      | setupFloor g bitmap considered valid =>
        have built : Sequenced (p.setupFloor g bitmap) := .of_empty rfl nofun
        unfold Part.kickBus
        split
        · exact built.of_round (Part.arbitrate_cases _)
        all_goals exact built
      | takeRoles rl bays floor steady valid =>
        have written : Sequenced (p.mapFm fun f => { f with rl := rl, spine := spineOf bays }) := h
        rw [Part.takeRoles_eq]
        split
        · exact Sequenced.notice (p := Part.mapPmon _ _) written
        · exact written
      | setAuto auto qt =>
        unfold Part.setAuto
        dsimp only
        split
        · exact Sequenced.notice (p := p.mapPmon _) h
        · exact h
      | startSolve running idle => exact h.startSolve (by rw [idle]; exact nofun)
      | askSolve => exact h
      | setPacing mode interval limit => exact h.setPacing mode interval limit
      | hasten => exact .cutRemaining .hasten p
      | setSupply budget interval floor =>
        have zones := p.supplied_steady_zones budget interval
        exact h.of_same zones.state (by rw [Part.setSupply_rsq]) zones.list
      | setZone tag requested =>
        exact h.of_steady ((Part.Steady.modifyZone (g := fun z => { z with settings := requested.clamped }) tag p (fun _ => rfl)
          fun _ _ => requested.clamped_valid).trans (.retargetZone tag _)) (by simp)
      | overrides entries => exact h.of_steady (.applyOverrides entries p) (Part.applyOverrides_rsq entries p)
      | pins pins room => exact h
      | mask mask => exact h
      | owes o => exact h⟩ }

end Sys2Proof.Machine

/-!
The zone table, the bays' tags and the cutover list in agreement (R65, R86, R89, R98, R110), and a bay's cutover.
-/
namespace Sys2Proof.Machine

/-! ### The zone table's slots -/

/-- One table's slots from another's: zones rewritten but for their tags, and some of them freed. -/
def Zt.Reworked (t t' : Zt) : Prop :=
  ∃ (g : Zone → Zone) (keep : Zone → Bool), (∀ z, (g z).tag = z.tag) ∧ t'.slots = t.slots.map fun o => (o.filter keep).map g

namespace Zt.Reworked
variable {t t' t'' : Zt}

theorem of_slots (same : t'.slots = t.slots) : t.Reworked t' := by
  refine ⟨id, fun _ => true, fun _ => rfl, ?_⟩
  rw [same]
  refine (List.map_id _).symm.trans (List.map_congr_left fun o _ => ?_)
  cases o <;> rfl

theorem mapZones {g : Zone → Zone} (tag : ∀ z, (g z).tag = z.tag) (t : Zt) : t.Reworked (t.mapZones g) := by
  refine ⟨g, fun _ => true, tag, List.map_congr_left fun o _ => ?_⟩
  cases o <;> rfl

theorem modifyZone {g : Zone → Zone} (named : Nat) (tag : ∀ z, (g z).tag = z.tag) (t : Zt) : t.Reworked (t.modifyZone named g) :=
  mapZones (fun z => by split <;> simp [tag]) t

theorem dropZone (tag : Nat) (t : Zt) : t.Reworked (t.dropZone tag) := by
  refine ⟨id, fun z => z.tag != tag, fun _ => rfl, List.map_congr_left fun o _ => ?_⟩
  rw [Option.map_id]
  rfl

theorem trans (first : t.Reworked t') (second : t'.Reworked t'') : t.Reworked t'' := by
  obtain ⟨g, keep, tag, slots⟩ := first
  obtain ⟨g', keep', tag', slots'⟩ := second
  refine ⟨fun z => g' (g z), fun z => keep z && keep' (g z), fun z => (tag' _).trans (tag z), ?_⟩
  rw [slots', slots, List.map_map]
  refine List.map_congr_left fun o _ => ?_
  cases o with
  | none => rfl
  | some z =>
    simp only [Function.comp_apply, Option.filter_some, Bool.and_eq_true]
    by_cases kept : keep z = true
    · by_cases kept' : keep' (g z) = true <;> simp [kept, kept', Option.filter_some]
    · simp [kept]

theorem zones (h : t.Reworked t') : ∃ (g : Zone → Zone) (keep : Zone → Bool), (∀ z, (g z).tag = z.tag)
    ∧ t'.zones = (t.zones.filter keep).map g := by
  obtain ⟨g, keep, tag, slots⟩ := h
  refine ⟨g, keep, tag, ?_⟩
  rw [Zt.zones, slots]
  exact filter_map_slots ..

theorem tags (h : t.Reworked t') : (t'.zones.map Zone.tag).Sublist (t.zones.map Zone.tag) := by
  obtain ⟨g, keep, tag, zones⟩ := h.zones
  rw [zones, List.map_map, show Zone.tag ∘ g = Zone.tag from funext tag]
  exact List.filter_sublist.map _

end Zt.Reworked

/-- Tags of used slots are distinct. -/
def Zt.Distinct (t : Zt) : Prop := (t.zones.map Zone.tag).Nodup

theorem Zt.Reworked.distinct {t t' : Zt} (h : t.Reworked t') (distinct : t.Distinct) : t'.Distinct := distinct.sublist h.tags

theorem Zt.Distinct.zone?_eq {t : Zt} (distinct : t.Distinct) {z : Zone} (mem : z ∈ t.zones) : t.zone? z.tag = some z := by
  cases found : t.zone? z.tag with
  | none => exact absurd (beq_self_eq_true z.tag) (List.find?_eq_none.1 found z mem)
  | some y => rw [List.inj_on_of_nodup_map distinct (mem_zones_of_zone? found) mem (zone?_tag _ _ _ found)]

/-- A zone that is still there is still in its slot. -/
theorem Zt.Reworked.slot {t t' : Zt} (h : t.Reworked t') (distinct : t.Distinct) {n : Nat} {z y : Zone}
    (held : t.slots[n]? = some (some z)) (still : t'.zone? z.tag = some y) : t'.slots[n]? = some (some y) := by
  have distinct' := h.distinct distinct
  obtain ⟨g, keep, tag, slots⟩ := h
  have mem : z ∈ t.zones := mem_zones.2 (List.mem_of_getElem? held)
  have kept : keep z = true := by
    have there := mem_zones.1 (mem_zones_of_zone? still)
    rw [slots] at there
    obtain ⟨o, from', eq⟩ := List.mem_map.1 there
    obtain ⟨x, filtered, rfl⟩ := Option.map_eq_some_iff.1 eq
    obtain ⟨rfl, keeps⟩ := Option.filter_eq_some_iff.1 filtered
    have same : x = z := List.inj_on_of_nodup_map distinct (mem_zones.2 from') mem ((tag x).symm.trans (zone?_tag _ _ _ still))
    rwa [same] at keeps
  have now : t'.slots[n]? = some (some (g z)) := by
    rw [slots, List.getElem?_map, held, Option.map_some, Option.filter_some, if_pos kept]
    rfl
  have found := distinct'.zone?_eq (mem_zones.2 (List.mem_of_getElem? now))
  rw [tag, still] at found
  rw [now, Option.some.inj found]

theorem Part.freeZone_reworked (p : Part) (tag : Nat) : p.zt.Reworked (p.freeZone tag).zt := by
  have zt : (p.freeZone tag).zt = { p.zt.dropZone tag with pins := p.zt.pins.filter fun x => x.tag != tag } := by
    rw [freeZone, raiseAll_zt]
    rfl
  rw [zt]
  exact (Zt.Reworked.dropZone tag p.zt).trans (.of_slots rfl)

theorem Part.zoneCounts_reworked (old new : Nat) (p : Part) : p.zt.Reworked (p.zoneCounts old new).zt := by
  have counted : p.zt.Reworked (p.recounted old new).zt :=
    (((Zt.Reworked.modifyZone (g := Zone.left) old (fun _ => rfl) p.zt).trans (.modifyZone new (Zone.joined_tag p.fm.clock) _)).trans
      (.modifyZone (g := fun z => { z with anchor := (p.fm.membersOf old).head? }) old (fun _ => rfl) _)).trans
      (.modifyZone (g := fun z => { z with anchor := (p.fm.membersOf new).head? }) new (fun _ => rfl) _)
  rw [zoneCounts_eq]
  split
  · split
    · exact counted.trans (freeZone_reworked _ old)
    · exact counted
  · exact counted

theorem Part.cutBay_reworked (b : Nat) (p : Part) : p.zt.Reworked (p.cutBay b).zt := by
  by_cases moving : ∃ r n, p.fm.node? b = some r ∧ r.nextTag = some n
  · obtain ⟨r, n, node, next⟩ := moving
    rw [cutBay_of_moving node next, countMove, mapCut_zt, retargetBay_zt]
    exact zoneCounts_reworked r.tag n ((p.unlist b).modifyNode b (BayRec.arrived n))
  · rw [cutBay_of_still fun r n node next => moving ⟨r, n, node, next⟩]
    exact .of_slots rfl

/-! ### The agreement -/

/-- R65, R86, R89, R98, R110: the zone table, the bays' tags and the cutover list agree. -/
structure ZoneTable (p : Part) : Prop where
  bare : p.fm.state = .unconfigured → p.fm.bays = []
  floor : p.fm.state ≠ .unconfigured → ∃ z, p.zt.slots[0]? = some (some z) ∧ z.tag = 0 ∧ z.life = .live
  distinct : p.zt.Distinct
  counted : ∀ {tag z}, p.zt.zone? tag = some z → z.members = (p.fm.membersOf tag).length
  housed : ∀ {b r}, p.fm.node? b = some r → ∃ z, p.zt.zone? r.tag = some z ∧ z.life ≠ .born
  bound : ∀ {b r n}, p.fm.node? b = some r → r.nextTag = some n → n ≠ r.tag ∧ ∃ z, p.zt.zone? n = some z ∧ z.life ≠ .retiring
  awaited : ∀ {tag z}, p.zt.zone? tag = some z → z.life = .born → ∃ b r, p.fm.node? b = some r ∧ r.nextTag = some tag
  leaving : ∀ {tag z}, p.zt.zone? tag = some z → z.life = .retiring →
    0 < z.members ∧ ∀ b r, p.fm.node? b = some r → r.tag = tag → r.nextTag.isSome = true
  listed : p.cut.list = p.movingBays

theorem Zt.head_join (t : Zt) (z : Zone) : z ∈ t.slots.head?.join ↔ t.slots[0]? = some (some z) := by
  rw [List.head?_eq_getElem?, Option.mem_def]
  cases t.slots[0]? with
  | none => simp
  | some o => simp

theorem zoneLaws_iff (p : Part) : ZoneLaws p ↔ ZoneTable p ∧ Sequenced p := by
  constructor
  · rintro ⟨bare, floor, distinct, counted, housed, bound, awaited, leaving, listed, -, empty, cutting⟩
    have distinct : p.zt.Distinct := List.pairwise_map.2 distinct
    have zone {tag : Nat} {z : Zone} (zone : p.zt.zone? tag = some z) : z ∈ p.zt.zones ∧ z.tag = tag :=
      ⟨Zt.mem_zones_of_zone? zone, Zt.zone?_tag _ _ _ zone⟩
    refine ⟨⟨bare, fun state => ?_, distinct, fun {tag z} held => ?_, fun {b r} node => ?_, fun {b r n} node next => ?_,
      fun {tag z} held born => ?_, fun {tag z} held retiring => ?_, listed⟩, empty, cutting⟩
    · obtain ⟨z, head, named⟩ := floor state
      exact ⟨z, (p.zt.head_join z).1 head, named⟩
    · obtain ⟨mem, rfl⟩ := zone held
      exact counted z mem
    · obtain ⟨z, mem, named, alive⟩ := housed (b, r) ((p.fm.mem_nodes b r).2 node)
      exact ⟨z, by rw [← named]; exact distinct.zone?_eq mem, alive⟩
    · obtain ⟨differ, z, mem, named, alive⟩ := bound (b, r) ((p.fm.mem_nodes b r).2 node) n next
      exact ⟨differ, z, by rw [← named]; exact distinct.zone?_eq mem, alive⟩
    · obtain ⟨mem, rfl⟩ := zone held
      obtain ⟨⟨b, r⟩, node, next⟩ := awaited z mem born
      exact ⟨b, r, (p.fm.mem_nodes b r).1 node, next⟩
    · obtain ⟨mem, rfl⟩ := zone held
      obtain ⟨some, all⟩ := leaving z mem retiring
      exact ⟨some, fun b r node named => all (b, r) ((p.fm.mem_nodes b r).2 node) named⟩
  · rintro ⟨h, empty, cutting⟩
    refine ⟨h.bare, fun state => ?_, List.pairwise_map.1 h.distinct, fun z mem => ?_, fun x mem => ?_, fun x mem n next => ?_,
      fun z mem born => ?_, fun z mem retiring => ?_, h.listed, ?_, empty, cutting⟩
    · obtain ⟨z, head, named⟩ := h.floor state
      exact ⟨z, (p.zt.head_join z).2 head, named⟩
    · exact h.counted (h.distinct.zone?_eq mem)
    · obtain ⟨z, held, alive⟩ := h.housed ((p.fm.mem_nodes x.1 x.2).1 mem)
      exact ⟨z, Zt.mem_zones_of_zone? held, Zt.zone?_tag _ _ _ held, alive⟩
    · obtain ⟨differ, z, held, alive⟩ := h.bound ((p.fm.mem_nodes x.1 x.2).1 mem) next
      exact ⟨differ, z, Zt.mem_zones_of_zone? held, Zt.zone?_tag _ _ _ held, alive⟩
    · obtain ⟨b, r, node, next⟩ := h.awaited (h.distinct.zone?_eq mem) born
      exact ⟨(b, r), (p.fm.mem_nodes b r).2 node, next⟩
    · obtain ⟨some, all⟩ := h.leaving (h.distinct.zone?_eq mem) retiring
      exact ⟨some, fun x held named => all x.1 x.2 ((p.fm.mem_nodes x.1 x.2).1 held) named⟩
    · rw [h.listed]
      exact p.fm.nodes_sorted.sublist (List.filter_sublist.map _)

/-! ### What leaves the zones' standing and the bays' marks -/

namespace Part.Standing
variable {p q : Part} (h : p.Standing q)
include h

theorem node {b : Nat} {r : BayRec} (node : q.fm.node? b = some r) :
    ∃ r', p.fm.node? b = some r' ∧ r'.tag = r.tag ∧ r'.nextTag = r.nextTag := by
  have mem : (b, r.tag, r.nextTag) ∈ q.fm.marks := List.mem_map.2 ⟨(b, r), (q.fm.mem_nodes b r).2 node, rfl⟩
  rw [h.marks] at mem
  obtain ⟨x, held, eq⟩ := List.mem_map.1 mem
  simp only [Prod.mk.injEq] at eq
  obtain ⟨rfl, tag, nextTag⟩ := eq
  exact ⟨x.2, (p.fm.mem_nodes x.1 x.2).1 held, tag, nextTag⟩

omit h in
theorem node_of_marks (marks : q.fm.marks = p.fm.marks) {b : Nat} {r : BayRec} (node : p.fm.node? b = some r) :
    ∃ r', q.fm.node? b = some r' ∧ r'.tag = r.tag ∧ r'.nextTag = r.nextTag := by
  have mem : (b, r.tag, r.nextTag) ∈ p.fm.marks := List.mem_map.2 ⟨(b, r), (p.fm.mem_nodes b r).2 node, rfl⟩
  rw [← marks] at mem
  obtain ⟨x, held, eq⟩ := List.mem_map.1 mem
  simp only [Prod.mk.injEq] at eq
  obtain ⟨rfl, tag, nextTag⟩ := eq
  exact ⟨x.2, (q.fm.mem_nodes x.1 x.2).1 held, tag, nextTag⟩

theorem zone (tag : Nat) : (q.zt.zone? tag).map Zone.standing = (p.zt.zone? tag).map Zone.standing := by
  have zones (t : Zt) : t.zones.map Zone.standing = t.standings.filterMap id := by
    rw [Zt.zones, Zt.standings, List.map_filterMap, List.filterMap_map]
    rfl
  have found (t : Zt) : (t.zone? tag).map Zone.standing = (t.zones.map Zone.standing).find? fun x => x.1 == tag := by
    rw [List.find?_map]
    rfl
  rw [found, found, zones, zones, h.standings]

theorem zone_some {tag : Nat} {z : Zone} (zone : q.zt.zone? tag = some z) :
    ∃ y, p.zt.zone? tag = some y ∧ y.life = z.life ∧ y.members = z.members := by
  have same := h.zone tag
  rw [zone, Option.map_some, eq_comm, Option.map_eq_some_iff] at same
  obtain ⟨y, held, eq⟩ := same
  cases y; cases z; cases eq
  exact ⟨_, held, rfl, rfl⟩

theorem zone_back {tag : Nat} {z : Zone} (zone : p.zt.zone? tag = some z) :
    ∃ y, q.zt.zone? tag = some y ∧ y.life = z.life ∧ y.members = z.members := by
  have same := h.zone tag
  rw [zone, Option.map_some, Option.map_eq_some_iff] at same
  obtain ⟨y, held, eq⟩ := same
  cases y; cases z; cases eq
  exact ⟨_, held, rfl, rfl⟩

theorem membersOf (tag : Nat) : q.fm.membersOf tag = p.fm.membersOf tag := by
  have ofMarks (f : FloorModel) : f.membersOf tag = (f.marks.filter fun x => x.2.1 = tag).map Prod.fst := by
    rw [FloorModel.marks, List.filter_map, List.map_map]
    rfl
  rw [ofMarks, ofMarks, h.marks]

theorem movingBays : q.movingBays = p.movingBays := by
  have ofMarks (p : Part) : p.movingBays = (p.fm.marks.filter fun x => x.2.2.isSome).map Prod.fst := by
    rw [FloorModel.marks, List.filter_map, List.map_map]
    rfl
  rw [ofMarks, ofMarks, h.marks]

theorem zoneTable (table : ZoneTable p) : ZoneTable q where
  bare state := List.length_eq_zero_iff.1 (h.size.trans (List.length_eq_zero_iff.2 (table.bare (h.state ▸ state))))
  floor state := by
    obtain ⟨z, slot, tag, life⟩ := table.floor (h.state ▸ state)
    have same := congrArg (·[0]?) h.standings
    simp only [Zt.standings, List.getElem?_map, slot, Option.map_some] at same
    obtain ⟨o, slot', eq⟩ := Option.map_eq_some_iff.1 same
    obtain ⟨y, rfl, eq⟩ := Option.map_eq_some_iff.1 eq
    have eq : y.standing = z.standing := Option.some.inj eq
    refine ⟨y, slot', ?_, ?_⟩
    · exact (congrArg Prod.fst eq).trans tag
    · exact (congrArg (·.2.1) eq).trans life
  distinct := by
    have tags (t : Zt) : t.zones.map Zone.tag = (t.standings.filterMap id).map Prod.fst := by
      rw [Zt.zones, Zt.standings, List.map_filterMap, List.filterMap_map, List.map_filterMap]
      refine List.filterMap_congr fun o _ => ?_
      cases o <;> rfl
    unfold Zt.Distinct
    rw [tags, h.standings, ← tags]
    exact table.distinct
  counted zone := by
    obtain ⟨y, held, -, members⟩ := h.zone_some zone
    rw [h.membersOf, ← members]
    exact table.counted held
  housed node := by
    obtain ⟨r', node', tag, -⟩ := h.node node
    obtain ⟨z, held, alive⟩ := table.housed node'
    obtain ⟨y, there, life, -⟩ := h.zone_back held
    exact ⟨y, tag ▸ there, life ▸ alive⟩
  bound node next := by
    obtain ⟨r', node', tag, nextTag⟩ := h.node node
    obtain ⟨differ, z, held, alive⟩ := table.bound node' (nextTag.trans next)
    obtain ⟨y, there, life, -⟩ := h.zone_back held
    exact ⟨tag ▸ differ, y, there, life ▸ alive⟩
  awaited zone born := by
    obtain ⟨y, held, life, -⟩ := h.zone_some zone
    obtain ⟨b, r, node, next⟩ := table.awaited held (life.trans born)
    obtain ⟨r', node', -, nextTag⟩ := node_of_marks h.marks node
    exact ⟨b, r', node', nextTag.trans next⟩
  leaving zone retiring := by
    obtain ⟨y, held, life, members⟩ := h.zone_some zone
    obtain ⟨some, all⟩ := table.leaving held (life.trans retiring)
    refine ⟨members ▸ some, fun b r node named => ?_⟩
    obtain ⟨r', node', tag, nextTag⟩ := h.node node
    rw [← nextTag]
    exact all b r' node' (tag.trans named)
  listed := by rw [h.list, h.movingBays, table.listed]

end Part.Standing

/-! ### A bay's cutover -/

/-- R98: a zone's members after one bay's tag has changed. -/
theorem FloorModel.mem_membersOf_of_moved {f g : FloorModel} {b n : Nat} {r : BayRec} (node : g.node? b = some r) (tag : r.tag = n)
    (others : ∀ b', b' ≠ b → g.node? b' = f.node? b') (named b' : Nat) :
    b' ∈ g.membersOf named ↔ if b' = b then named = n else b' ∈ f.membersOf named := by
  rw [mem_membersOf]
  split
  · next own =>
    subst own
    rw [node]
    simp [tag, eq_comm]
  · next other => rw [others b' other, mem_membersOf]

theorem FloorModel.membersOf_nodup (f : FloorModel) (tag : Nat) : (f.membersOf tag).Nodup := (f.membersOf_sorted tag).imp Nat.ne_of_lt

section
variable {f g : FloorModel} {b n : Nat} {r r' : BayRec} (before : f.node? b = some r) (after : g.node? b = some r') (tag : r'.tag = n)
  (differ : n ≠ r.tag) (others : ∀ b', b' ≠ b → g.node? b' = f.node? b')
include before after tag differ others

theorem FloorModel.membersOf_left : (f.membersOf r.tag).length = (g.membersOf r.tag).length + 1 := by
  have perm : (f.membersOf r.tag).Perm (b :: g.membersOf r.tag) := by
    refine (List.perm_ext_iff_of_nodup (f.membersOf_nodup _) (List.nodup_cons.2 ⟨?_, g.membersOf_nodup _⟩)).2 fun b' => ?_
    · rw [mem_membersOf_of_moved after tag others, if_pos rfl]
      exact differ.symm
    · rw [List.mem_cons, mem_membersOf_of_moved after tag others]
      by_cases own : b' = b
      · subst own
        simp only [true_or, iff_true]
        exact (f.mem_membersOf _ _).2 ⟨r, before, rfl⟩
      · simp only [own, false_or, if_false]
  exact perm.length_eq

theorem FloorModel.membersOf_joined : (g.membersOf n).length = (f.membersOf n).length + 1 := by
  have perm : (g.membersOf n).Perm (b :: f.membersOf n) := by
    refine (List.perm_ext_iff_of_nodup (g.membersOf_nodup _) (List.nodup_cons.2 ⟨?_, f.membersOf_nodup _⟩)).2 fun b' => ?_
    · intro there
      obtain ⟨x, held, named⟩ := (f.mem_membersOf _ _).1 there
      rw [before] at held
      exact differ (named.symm.trans (congrArg BayRec.tag (Option.some.inj held)).symm)
    · rw [List.mem_cons, mem_membersOf_of_moved after tag others]
      by_cases own : b' = b <;> simp [own]
  exact perm.length_eq

omit differ in
theorem FloorModel.membersOf_elsewhere {named : Nat} (notOld : named ≠ r.tag) (notNew : named ≠ n) :
    g.membersOf named = f.membersOf named := by
  refine ascending_ext (g.membersOf_sorted _) (f.membersOf_sorted _) fun b' => ?_
  rw [mem_membersOf_of_moved after tag others]
  split
  · next own =>
    subst own
    refine iff_of_false notNew fun there => ?_
    obtain ⟨x, held, same⟩ := (f.mem_membersOf _ _).1 there
    rw [before] at held
    exact notOld (same.symm.trans (congrArg BayRec.tag (Option.some.inj held)).symm)
  · exact .rfl

end

theorem Part.Steady.retargetBay (b : Nat) (p : Part) : p.Steady (p.retargetBay b) := by
  unfold Part.retargetBay
  split
  · split
    · next z zone =>
      exact modifyNode (g := fun r => { r with target := some z.target }) b p (fun _ => rfl) (fun _ => rfl) (fun _ => rfl)
        fun valid r _ lit => lit.retargeted (valid.target_le zone)
    · exact refl p
  · exact refl p

/-- R114: a cutover moves bays between zones and leaves their number, their grants and the budget. -/
theorem Part.cutBay_grants (b : Nat) (p : Part) :
    p.SameGrants (p.cutBay b) ∧ (p.cutBay b).fm.bays.length = p.fm.bays.length := by
  by_cases moving : ∃ r n, p.fm.node? b = some r ∧ r.nextTag = some n
  · obtain ⟨r, n, node, next⟩ := moving
    rw [cutBay_of_moving node next]
    generalize moved : ((p.unlist b).modifyNode b (BayRec.arrived n)).zoneCounts r.tag n = q
    have fm : q.fm = p.fm.modifyNode b (BayRec.arrived n) := by rw [← moved, zoneCounts_fm]; rfl
    have afa : q.afa = p.afa := by rw [← moved, zoneCounts_afa]; rfl
    have first : p.SameGrants q := by
      refine ⟨by rw [fm]; rfl, by rw [fm]; rfl, by rw [fm]; rfl, ?_, by rw [afa], by rw [afa]⟩
      rw [fm]
      exact FloorModel.grants_mapNodes fun x _ => (apply_ite BayRec.q _ _ _).trans (ite_self _)
    have lit := Steady.retargetBay b q
    refine ⟨(first.trans lit.sameGrants).trans ⟨rfl, rfl, rfl, rfl, rfl, rfl⟩, lit.standing.size.trans ?_⟩
    rw [fm]
    exact FloorModel.mapNodes_size ..
  · rw [cutBay_of_still fun r n node next => moving ⟨r, n, node, next⟩]
    exact ⟨⟨rfl, rfl, rfl, rfl, rfl, rfl⟩, rfl⟩

theorem Part.movingBays_iff (p : Part) (b : Nat) : b ∈ p.movingBays ↔ ∃ r, p.fm.node? b = some r ∧ r.nextTag.isSome = true := by
  unfold movingBays
  simp only [List.mem_map, List.mem_filter, Prod.exists, exists_and_right, exists_eq_right, p.fm.mem_nodes]

theorem Part.movingBays_sorted (p : Part) : p.movingBays.Pairwise (· < ·) := p.fm.nodes_sorted.sublist (List.filter_sublist.map _)

/-- R110, R114: a bay that does not move leaves the list as it was. -/
theorem ZoneTable.cutBay_still {p : Part} (h : ZoneTable p) {b : Nat} (still : ∀ r n, p.fm.node? b = some r → r.nextTag ≠ some n) :
    ZoneTable (p.cutBay b) := by
  rw [Part.cutBay_of_still still]
  have absent : b ∉ p.cut.list := by
    rw [h.listed, p.movingBays_iff]
    rintro ⟨r, node, moves⟩
    obtain ⟨n, next⟩ := Option.isSome_iff_exists.1 moves
    exact still r n node next
  have list : removeSet b p.cut.list = p.cut.list :=
    List.filter_eq_self.2 fun a mem => decide_eq_true fun same => absent (same ▸ mem)
  have same : p.Standing (p.unlist b) := .of_blocks rfl rfl rfl list
  exact same.zoneTable h

theorem ZoneTable.cutBay {p : Part} (h : ZoneTable p) (b : Nat) : ZoneTable (p.cutBay b) := by
  by_cases moving : ∃ r n, p.fm.node? b = some r ∧ r.nextTag = some n
  swap
  · exact h.cutBay_still fun r n node next => moving ⟨r, n, node, next⟩
  obtain ⟨r, n, node, next⟩ := moving
  obtain ⟨old, left, notBorn⟩ := h.housed node
  obtain ⟨differ, new, joined, notRetiring⟩ := h.bound node next
  have oldTag : old.tag = r.tag := Zt.zone?_tag _ _ _ left
  have newTag : new.tag = n := Zt.zone?_tag _ _ _ joined
  have list : (p.cutBay b).cut.list = removeSet b p.cut.list := by rw [Part.cutBay_cut node next]
  have reworked := p.cutBay_reworked b
  have keeps := Part.Keeps.cutBay b p
  have size : (p.cutBay b).fm.bays.length = p.fm.bays.length := (p.cutBay_grants b).2
  obtain ⟨-, own, others, oldZone, newZone, otherZone, -, -⟩ := Part.cutBay_moves node next left joined differ
  generalize p.cutBay b = q at *
  rw [oldTag] at oldZone otherZone
  rw [newTag] at own newZone otherZone
  have leftOne := FloorModel.membersOf_left node own rfl differ others
  have joinedOne := FloorModel.membersOf_joined node own rfl differ others
  have oldCount := h.counted left
  have freed (gone : freedByLeaving old = true) : old.life = .retiring ∧ q.fm.membersOf r.tag = [] := by
    simp only [freedByLeaving, Bool.and_eq_true, beq_iff_eq] at gone
    exact ⟨gone.1, List.length_eq_zero_iff.1 (by omega)⟩
  /- A zone afterwards, from the zone before. -/
  have zone {tag : Nat} {z : Zone} (zone : q.zt.zone? tag = some z) : ∃ y, p.zt.zone? tag = some y
      ∧ (tag = r.tag ∧ z.life = y.life ∧ z.members = y.members - 1 ∧ freedByLeaving y = false
        ∨ tag = n ∧ z.life ≠ .born ∧ z.life ≠ .retiring ∧ z.members = y.members + 1
        ∨ tag ≠ r.tag ∧ tag ≠ n ∧ z = y) := by
    by_cases isOld : tag = r.tag
    · subst isOld
      rw [oldZone] at zone
      split at zone
      · cases zone
      · next stays =>
        cases zone
        exact ⟨old, left, .inl ⟨rfl, rfl, rfl, by simpa using stays⟩⟩
    · by_cases isNew : tag = n
      · subst isNew
        rw [newZone] at zone
        cases zone
        refine ⟨new, joined, .inr (.inl ⟨rfl, ?_, ?_, rfl⟩)⟩
        · dsimp only
          split
          · exact nofun
          · assumption
        · dsimp only
          split
          · exact nofun
          · exact notRetiring
      · rw [otherZone tag isOld isNew] at zone
        exact ⟨z, zone, .inr (.inr ⟨isOld, isNew, rfl⟩)⟩
  /- A zone before, where it stays. -/
  have stays {tag : Nat} {y : Zone} (held : p.zt.zone? tag = some y) (kept : tag = r.tag → freedByLeaving old = false) :
      ∃ z, q.zt.zone? tag = some z ∧ (z.life = y.life ∨ z.life = .live) := by
    by_cases isOld : tag = r.tag
    · subst isOld
      rw [left] at held
      cases held
      rw [oldZone, kept rfl]
      exact ⟨_, rfl, .inl rfl⟩
    · by_cases isNew : tag = n
      · subst isNew
        rw [joined] at held
        cases held
        refine ⟨_, newZone, ?_⟩
        dsimp only
        split
        · exact .inr rfl
        · exact .inl rfl
      · exact ⟨y, (otherZone tag isOld isNew).trans held, .inl rfl⟩
  exact {
    bare := fun state => List.length_eq_zero_iff.1 (size.trans (List.length_eq_zero_iff.2 (h.bare (keeps.state ▸ state))))
    floor := fun state => by
      obtain ⟨z, slot, named, live⟩ := h.floor (keeps.state ▸ state)
      have found := h.distinct.zone?_eq (Zt.mem_zones.2 (List.mem_of_getElem? slot))
      obtain ⟨y, there, life⟩ := stays found fun same => by
        rw [same, left] at found
        cases found
        simp [freedByLeaving, live]
      have tag : y.tag = z.tag := Zt.zone?_tag _ _ _ there
      refine ⟨y, reworked.slot h.distinct slot there, tag.trans named, ?_⟩
      rcases life with same | isLive
      · exact same.trans live
      · exact isLive
    distinct := reworked.distinct h.distinct
    counted := fun {tag z} held => by
      obtain ⟨y, was, ⟨rfl, -, members, -⟩ | ⟨rfl, -, -, members⟩ | ⟨notOld, notNew, rfl⟩⟩ := zone held
      · have := h.counted was
        omega
      · rw [members, h.counted was, joinedOne]
      · rw [FloorModel.membersOf_elsewhere node own rfl others notOld notNew]
        exact h.counted was
    housed := fun {b' r'} node' => by
      by_cases isOwn : b' = b
      · subst isOwn
        rw [own] at node'
        cases node'
        refine ⟨_, newZone, ?_⟩
        dsimp only
        split
        · exact nofun
        · assumption
      · have there := (others b' isOwn).symm.trans node'
        obtain ⟨y, held, alive⟩ := h.housed there
        obtain ⟨z, still, life⟩ := stays held fun same => by
          by_contra gone
          have empty := (freed (by simpa using gone)).2
          have member := (q.fm.mem_membersOf r.tag b').2 ⟨r', node', same⟩
          rw [empty] at member
          cases member
        refine ⟨z, still, ?_⟩
        rcases life with same | isLive
        · rwa [same]
        · rw [isLive]
          exact nofun
    bound := fun {b' r' m} node' next' => by
      by_cases isOwn : b' = b
      · subst isOwn
        rw [own] at node'
        cases node'
        cases next'
      · obtain ⟨apart, y, held, alive⟩ := h.bound ((others b' isOwn).symm.trans node') next'
        obtain ⟨z, still, life⟩ := stays held fun same => by
          by_contra gone
          rw [same, left] at held
          cases held
          exact alive (freed (by simpa using gone)).1
        refine ⟨apart, z, still, ?_⟩
        rcases life with same | isLive
        · rwa [same]
        · rw [isLive]
          exact nofun
    awaited := fun {tag z} held born => by
      obtain ⟨y, was, ⟨rfl, life, -, -⟩ | ⟨-, notBorn', -, -⟩ | ⟨-, notNew, rfl⟩⟩ := zone held
      · rw [left] at was
        cases was
        exact absurd (life.symm.trans born) notBorn
      · exact absurd born notBorn'
      · obtain ⟨b', r', node', next'⟩ := h.awaited was born
        have other : b' ≠ b := by
          rintro rfl
          rw [node] at node'
          cases node'
          exact notNew (Option.some.inj (next'.symm.trans next))
        exact ⟨b', r', (others b' other).trans node', next'⟩
    leaving := fun {tag z} held retiring => by
      have others' {b' : Nat} {r' : BayRec} (node' : q.fm.node? b' = some r') (named : r'.tag = tag) (notNew : tag ≠ n) :
          p.fm.node? b' = some r' := by
        refine (others b' ?_).symm.trans node'
        rintro rfl
        rw [own] at node'
        cases node'
        exact notNew named.symm
      obtain ⟨y, was, ⟨rfl, life, members, kept⟩ | ⟨-, -, notRetiring', -⟩ | ⟨-, notNew, rfl⟩⟩ := zone held
      · obtain ⟨some, all⟩ := h.leaving was (life.symm.trans retiring)
        refine ⟨?_, fun b' r' node' named => all b' r' (others' node' named differ.symm) named⟩
        have left : ¬ y.members - 1 = 0 := by
          intro none
          simp [freedByLeaving, life.symm.trans retiring, none] at kept
        omega
      · exact absurd retiring notRetiring'
      · obtain ⟨some, all⟩ := h.leaving was retiring
        exact ⟨some, fun b' r' node' named => all b' r' (others' node' named notNew) named⟩
    listed := by
      rw [list, h.listed]
      refine ascending_ext (p.movingBays_sorted.filter _) q.movingBays_sorted fun b' => ?_
      rw [removeSet, List.mem_filter, p.movingBays_iff, q.movingBays_iff, decide_eq_true_eq]
      by_cases isOwn : b' = b
      · subst isOwn
        simp [own]
      · rw [others b' isOwn]
        simp [isOwn] }

end Sys2Proof.Machine

/-!
Born zones allocated at a commit (R80, R86, R87, R91, R93): the tags given, the slots taken, and the records.
-/
namespace Sys2Proof.Machine

/-! ### The tags given (R87) -/

theorem tagAfter_eq {t : Nat} (low : 1 ≤ t) (high : t ≤ 250) : tagAfter t = t % 250 + 1 := by
  unfold tagAfter
  split <;> omega

/-- R87: fewer than 250 tags held leave one of 1..250 free. -/
theorem exists_freeTag {used : List Nat} (few : used.length < 250) : ∃ t, 1 ≤ t ∧ t ≤ 250 ∧ t ∉ used := by
  by_contra all
  push Not at all
  have within : List.range' 1 250 ⊆ used := by
    intro t mem
    have := List.mem_range'_1.1 mem
    exact all t (by omega) (by omega)
  have := (List.subperm_of_subset (List.nodup_range' (step := 1)) within).length_le
  rw [List.length_range'] at this
  omega

/-- The tests of R87, from the `k`-th on. -/
theorem nextFreeTag_first {used : List Nat} {counter : Nat} (few : used.length < 250) (fuel k : Nat)
    (count : k + fuel = 250) (passed : ∀ j, j < k → (counter - 1 + j) % 250 + 1 ∈ used) :
    FirstFreeTag used counter (nextFreeTag used fuel ((counter - 1 + k) % 250 + 1)) := by
  induction fuel generalizing k with
  | zero =>
    obtain ⟨t, low, high, free⟩ := exists_freeTag few
    have reached := passed ((t - 1 + 250 - (counter - 1) % 250) % 250) (by omega)
    rw [show (counter - 1 + (t - 1 + 250 - (counter - 1) % 250) % 250) % 250 + 1 = t by omega] at reached
    exact absurd reached free
  | succ fuel ih =>
    unfold nextFreeTag
    split
    · next held =>
      have after : (if (counter - 1 + k) % 250 + 1 = 250 then 1 else (counter - 1 + k) % 250 + 1 + 1) = (counter - 1 + (k + 1)) % 250 + 1 := by
        split <;> omega
      rw [after]
      refine ih (k + 1) (by omega) fun j below => ?_
      rcases Nat.lt_succ_iff_lt_or_eq.1 below with earlier | rfl
      · exact passed j earlier
      · exact held
    · next free => exact ⟨k, by omega, rfl, free, passed⟩

theorem nextFreeTag_spec {used : List Nat} {counter : Nat} (low : 1 ≤ counter) (high : counter ≤ 250) (few : used.length < 250) :
    FirstFreeTag used counter (nextFreeTag used 250 counter) := by
  have first := nextFreeTag_first (counter := counter) few 250 0 rfl nofun
  rwa [show (counter - 1 + 0) % 250 + 1 = counter by omega] at first

theorem FirstFreeTag.congr {used used' : List Nat} {counter tag : Nat} (same : ∀ x, x ∈ used ↔ x ∈ used') (h : FirstFreeTag used counter tag) :
    FirstFreeTag used' counter tag := by
  obtain ⟨k, below, eq, free, passed⟩ := h
  exact ⟨k, below, eq, mt (same tag).2 free, fun j earlier => (same _).1 (passed j earlier)⟩

theorem TagsGiven.congr {used used' tags : List Nat} {counter after : Nat} (same : ∀ x, x ∈ used ↔ x ∈ used')
    (h : TagsGiven used counter tags after) : TagsGiven used' counter tags after := by
  induction tags generalizing used used' counter with
  | nil => exact h
  | cons tag tags ih =>
    refine ⟨h.1.congr same, ih (fun x => ?_) h.2⟩
    rw [List.mem_cons, List.mem_cons, same]

/-! ### The slots taken (R86) -/

/-- R86: the FREE slots, ascending. -/
def freeSlots (slots : List (Option Zone)) : List Nat := (List.range slots.length).filter fun n => slots[n]? == some none

theorem freeSlots_cons (o : Option Zone) (slots : List (Option Zone)) :
    freeSlots (o :: slots) = (if o = none then [0] else []) ++ (freeSlots slots).map Nat.succ := by
  unfold freeSlots
  rw [List.length_cons, List.range_succ_eq_map, List.filter_cons, List.filter_map]
  have shifted : ((fun n => (o :: slots)[n]? == some none) ∘ Nat.succ) = fun n => slots[n]? == some none := by
    funext n
    simp
  rw [shifted]
  cases o <;> simp

theorem mem_freeSlots {slots : List (Option Zone)} {n : Nat} : n ∈ freeSlots slots ↔ slots[n]? = some none := by
  unfold freeSlots
  rw [List.mem_filter, List.mem_range, beq_iff_eq, and_iff_right_iff_imp]
  intro free
  exact (List.getElem?_eq_some_iff.1 free).1

theorem freeSlots_nodup (slots : List (Option Zone)) : (freeSlots slots).Nodup := List.nodup_range.filter _

/-- R86: a record goes into the first FREE slot. -/
theorem fillFree_eq {z : Zone} {slots : List (Option Zone)} {n : Nat} {rest : List Nat} (free : freeSlots slots = n :: rest) :
    fillFree z slots = slots.set n (some z) := by
  induction slots generalizing n rest with
  | nil => cases free
  | cons o slots ih =>
    rw [freeSlots_cons] at free
    cases o with
    | none =>
      cases free
      rfl
    | some y =>
      rw [if_neg nofun, List.nil_append] at free
      obtain ⟨m, rest', eq, rfl, -⟩ := List.map_eq_cons_iff.1 free
      exact congrArg (some y :: ·) (ih eq)

theorem freeSlots_set {z : Zone} {slots : List (Option Zone)} {n : Nat} {rest : List Nat} (free : freeSlots slots = n :: rest) :
    freeSlots (slots.set n (some z)) = rest := by
  have others : freeSlots (slots.set n (some z)) = (freeSlots slots).filter (· ≠ n) := by
    unfold freeSlots
    rw [List.length_set, List.filter_filter]
    refine List.filter_congr fun m _ => ?_
    rw [List.getElem?_set]
    by_cases same : n = m
    · subst same
      by_cases inside : n < slots.length <;> simp [inside]
    · simp [same, Ne.symm same]
  have apart := freeSlots_nodup slots
  rw [free] at apart others
  obtain ⟨notLater, -⟩ := List.nodup_cons.1 apart
  rw [others, List.filter_cons_of_neg (by simp)]
  exact List.filter_eq_self.2 fun m mem => decide_eq_true fun same => notLater (same ▸ mem)

/-- The zones once a FREE slot is taken. -/
theorem zones_set {z : Zone} {slots : List (Option Zone)} {n : Nat} (free : slots[n]? = some none) :
    ((slots.set n (some z)).filterMap id).Perm (z :: slots.filterMap id) := by
  obtain ⟨inside, held⟩ := List.getElem?_eq_some_iff.1 free
  have whole : slots = slots.take n ++ none :: slots.drop (n + 1) := by
    rw [← held, List.getElem_cons_drop, List.take_append_drop]
  have filled : slots.set n (some z) = slots.take n ++ some z :: slots.drop (n + 1) := List.set_eq_take_append_cons_drop.trans (if_pos inside)
  rw [filled]
  conv_rhs => rw [whole]
  rw [List.filterMap_append, List.filterMap_append, List.filterMap_cons_some (f := id) rfl, List.filterMap_cons_none (f := id) rfl]
  exact List.perm_middle

/-! ### One zone allocated -/

/-- R91: the settings that a zone born of a parent takes. -/
def Zt.parentSettings (t : Zt) (parent : Nat) : Settings :=
  match t.zone? parent with
  | some z => z.settings
  | none => .setup

/-- R80: the record of the next zone born. -/
def Zt.nextBorn (t : Zt) (parent : Nat) : Zone :=
  .newborn (nextFreeTag (t.zones.map Zone.tag) 250 t.nextTag) parent (t.parentSettings parent)

/-- Slot 0 is zone 0's, so the first FREE slot is one of 1..63. -/
theorem Zt.allocate_slots {t : Zt} {y : Zone} (zero : t.slots[0]? = some (some y)) {n : Nat} {rest : List Nat}
    (free : freeSlots t.slots = n :: rest) (parent : Nat) :
    (t.allocate parent).1.slots = t.slots.set n (some (t.nextBorn parent)) := by
  rw [← fillFree_eq free]
  show t.slots.take 1 ++ fillFree (t.nextBorn parent) (t.slots.drop 1) = _
  cases slots : t.slots with
  | nil => rw [slots] at zero; cases zero
  | cons o others =>
    rw [slots] at zero
    cases zero
    rfl

/-- Distinct tags determine the zone of a tag by membership. -/
theorem Zt.Distinct.zone?_iff {t : Zt} (distinct : t.Distinct) {tag : Nat} {z : Zone} : t.zone? tag = some z ↔ z ∈ t.zones ∧ z.tag = tag :=
  ⟨fun held => ⟨mem_zones_of_zone? held, zone?_tag _ _ _ held⟩, fun ⟨mem, named⟩ => named ▸ distinct.zone?_eq mem⟩

theorem Zt.zone?_eq_none_iff {t : Zt} {tag : Nat} : t.zone? tag = none ↔ tag ∉ t.zones.map Zone.tag := by
  rw [zone?, List.find?_eq_none]
  simp

section
variable {t : Zt} {y : Zone} (zero : t.slots[0]? = some (some y)) (distinct : t.Distinct) (counter : 1 ≤ t.nextTag ∧ t.nextTag ≤ 250)
  {n : Nat} {rest : List Nat} (free : freeSlots t.slots = n :: rest) (few : t.zones.length < 250) (parent : Nat)

include zero free in
theorem Zt.allocate_zones : (t.allocate parent).1.zones.Perm (t.nextBorn parent :: t.zones) := by
  rw [zones, allocate_slots zero free]
  exact zones_set (mem_freeSlots.1 (free ▸ List.mem_cons_self))

include counter few in
theorem Zt.nextBorn_free : FirstFreeTag (t.zones.map Zone.tag) t.nextTag (t.nextBorn parent).tag :=
  nextFreeTag_spec counter.1 counter.2 (by rwa [List.length_map])

include counter few in
theorem Zt.nextBorn_fresh : t.zone? (t.nextBorn parent).tag = none := by
  obtain ⟨-, -, -, fresh, -⟩ := nextBorn_free counter few parent
  exact zone?_eq_none_iff.2 fresh

include zero distinct counter free few

theorem Zt.allocate_distinct : (t.allocate parent).1.Distinct := by
  have tags := (allocate_zones zero free parent).map Zone.tag
  refine tags.nodup_iff.2 (List.nodup_cons.2 ⟨?_, distinct⟩)
  exact zone?_eq_none_iff.1 (nextBorn_fresh counter few parent)

theorem Zt.allocate_zone? (tag : Nat) :
    (t.allocate parent).1.zone? tag = if tag = (t.nextBorn parent).tag then some (t.nextBorn parent) else t.zone? tag := by
  have distinct' := allocate_distinct zero distinct counter free few parent
  have zones := allocate_zones zero free parent
  refine Option.ext fun z => ?_
  rw [distinct'.zone?_iff, zones.mem_iff, List.mem_cons]
  have fresh := zone?_eq_none_iff.1 (nextBorn_fresh counter few parent)
  by_cases own : tag = (t.nextBorn parent).tag
  · rw [if_pos own, Option.some.injEq, own]
    refine ⟨fun ⟨mem, named⟩ => ?_, fun same => ⟨.inl same.symm, same ▸ rfl⟩⟩
    rcases mem with rfl | old
    · rfl
    · exact absurd (named ▸ List.mem_map_of_mem old) fresh
  · rw [if_neg own, distinct.zone?_iff]
    refine ⟨fun ⟨mem, named⟩ => ⟨mem.resolve_left fun same => own (named ▸ same ▸ rfl), named⟩, fun ⟨mem, named⟩ => ⟨.inr mem, named⟩⟩

end

/-! ### Every admitted component's zone -/

/-- R79, R80: what the allocation of the admitted components leaves. -/
structure Zt.Allocated (t : Zt) (admitted : List (Component × Nat)) (tags : List Nat) (t' : Zt) (given : List (Nat × Nat)) : Prop where
  count : tags.length = admitted.length
  order : TagsGiven (t.zones.map Zone.tag) t.nextTag tags t'.nextTag
  given : given = (admitted.map fun a => a.1.key).zip tags
  distinct : t'.Distinct
  fresh : ∀ tag ∈ tags, t.zone? tag = none
  apart : tags.Nodup
  kept : ∀ {tag z}, t.zone? tag = some z → t'.zone? tag = some z
  born : ∀ {k : Nat} {c : Component} {parent tag : Nat}, admitted[k]? = some (c, parent) → tags[k]? = some tag →
    t'.zone? tag = some (.newborn tag parent (t.parentSettings parent))
  absent : ∀ {tag}, t.zone? tag = none → tag ∉ tags → t'.zone? tag = none
  held : ∀ {n : Nat} {z : Zone}, t.slots[n]? = some (some z) → t'.slots[n]? = some (some z)
  taken : ∀ {k n tag : Nat}, (freeSlots t.slots)[k]? = some n → tags[k]? = some tag →
    ∃ z : Zone, t'.slots[n]? = some (some z) ∧ z.tag = tag
  pins : t'.pins = t.pins

theorem Zt.allocateAll_spec {t : Zt} (distinct : t.Distinct) (counter : 1 ≤ t.nextTag ∧ t.nextTag ≤ 250)
    (admitted : List (Component × Nat)) (zero : admitted ≠ [] → ∃ y, t.slots[0]? = some (some y)) (room : admitted.length ≤ (freeSlots t.slots).length)
    (few : t.zones.length + admitted.length ≤ 250) (parents : ∀ a ∈ admitted, ∃ z, t.zone? a.2 = some z) :
    ∃ tags, t.Allocated admitted tags (t.allocateAll admitted).1 (t.allocateAll admitted).2 := by
  induction admitted generalizing t with
  | nil =>
    refine ⟨[], rfl, rfl, rfl, distinct, nofun, List.nodup_nil, id, nofun, fun none _ => none, id, nofun, rfl⟩
  | cons a rest ih =>
    obtain ⟨y, zero⟩ := zero nofun
    obtain ⟨n, slotsLeft, free⟩ := List.exists_cons_of_length_pos (Nat.lt_of_lt_of_le (Nat.zero_lt_succ _) room)
    rw [List.length_cons] at room few
    have few' : t.zones.length < 250 := by omega
    have slots := allocate_slots zero free a.2
    have zones := allocate_zones zero free a.2
    have zone? := allocate_zone? zero distinct counter free few' a.2
    have first := nextBorn_free counter few' a.2
    have fresh := nextBorn_fresh counter few' a.2
    have distinct' := allocate_distinct zero distinct counter free few' a.2
    have after : (t.allocate a.2).1.nextTag = tagAfter (t.nextBorn a.2).tag := rfl
    have range : 1 ≤ (t.nextBorn a.2).tag ∧ (t.nextBorn a.2).tag ≤ 250 := nextFreeTag_range _ 250 counter
    have pins : (t.allocate a.2).1.pins = t.pins := rfl
    have unfolded : t.allocateAll (a :: rest) = (((t.allocate a.2).1.allocateAll rest).1,
        (a.1.key, (t.nextBorn a.2).tag) :: ((t.allocate a.2).1.allocateAll rest).2) := rfl
    rw [unfolded]
    generalize (t.allocate a.2).1 = t₁ at *
    generalize bornEq : t.nextBorn a.2 = z at *
    have notZero : n ≠ 0 := by
      rintro rfl
      have := mem_freeSlots.1 (free ▸ List.mem_cons_self)
      rw [zero] at this
      cases this
    have stays {m : Nat} {x : Zone} (held : t.slots[m]? = some (some x)) : t₁.slots[m]? = some (some x) := by
      rw [slots, List.getElem?_set, if_neg, held]
      rintro rfl
      have := mem_freeSlots.1 (free ▸ List.mem_cons_self)
      rw [held] at this
      cases this
    have still {tag : Nat} {x : Zone} (held : t.zone? tag = some x) : t₁.zone? tag = some x := by
      rw [zone?, if_neg, held]
      rintro rfl
      rw [fresh] at held
      cases held
    have left : freeSlots t₁.slots = slotsLeft := by
      rw [slots]
      exact freeSlots_set free
    have settings {parent : Nat} {x : Zone} (held : t.zone? parent = some x) : t₁.parentSettings parent = t.parentSettings parent := by
      unfold parentSettings
      rw [held, still held]
    have tagsPerm : ∀ x, x ∈ t₁.zones.map Zone.tag ↔ x ∈ z.tag :: t.zones.map Zone.tag := fun x => (zones.map Zone.tag).mem_iff
    obtain ⟨tags, h⟩ := ih distinct' (after ▸ tagAfter_range range) (fun _ => ⟨y, stays zero⟩)
      (by rw [left]; rw [free, List.length_cons] at room; omega) (by rw [zones.length_eq, List.length_cons]; omega)
      fun b mem => (parents b (List.mem_cons_of_mem _ mem)).imp fun _ => still
    have own : t₁.zone? z.tag = some z := by rw [zone?, if_pos rfl]
    refine ⟨z.tag :: tags, ?_⟩
    exact {
      count := congrArg (· + 1) h.count
      order := ⟨first, by
        have order := h.order
        rw [after, tagAfter_eq range.1 range.2] at order
        exact order.congr tagsPerm⟩
      given := by rw [h.given]; rfl
      distinct := h.distinct
      fresh := fun tag mem => by
        rcases List.mem_cons.1 mem with rfl | later
        · exact fresh
        · have none := h.fresh tag later
          rw [zone?] at none
          split at none
          · cases none
          · exact none
      apart := by
        refine List.nodup_cons.2 ⟨fun later => ?_, h.apart⟩
        have none := h.fresh _ later
        rw [own] at none
        cases none
      kept := fun held => h.kept (still held)
      born := fun {k c parent tag} entry given => by
        cases k with
        | zero =>
          cases entry
          cases given
          rw [h.kept own, ← bornEq]
          rfl
        | succ k =>
          obtain ⟨x, held⟩ := parents _ (List.mem_cons_of_mem _ (List.mem_of_getElem? entry))
          rw [← settings held]
          exact h.born entry given
      absent := fun {tag} none notGiven => by
        obtain ⟨notOwn, notLater⟩ := List.ne_and_not_mem_of_not_mem_cons notGiven
        exact h.absent (by rw [zone?, if_neg notOwn, none]) notLater
      held := fun there => h.held (stays there)
      taken := fun {k m tag} slot given => by
        rw [free] at slot
        cases k with
        | zero =>
          cases slot
          cases given
          refine ⟨z, h.held ?_, rfl⟩
          rw [slots, List.getElem?_set_self]
          exact (List.getElem?_eq_some_iff.1 (mem_freeSlots.1 (free ▸ List.mem_cons_self))).1
        | succ k => exact h.taken (left ▸ slot) given
      pins := h.pins.trans pins }

end Sys2Proof.Machine

/-!
The zones and bays after a commit (R77, R79, R89, R97, R99): retiring zones, planned tags and counts.
-/
namespace Sys2Proof.Machine

/-! ### Retiring zones (R79, step 2) -/

/-- R79, step 2: what becomes of a retiring zone's record. -/
def Zone.retires (z : Zone) : Option Zone := if z.members = 0 then none else some { z with life := .retiring }

theorem Zone.retires_twice (o : Option Zone) : (o.bind retires).bind retires = o.bind retires := by
  cases o with
  | none => rfl
  | some z =>
    rw [Option.bind_some]
    unfold retires
    by_cases empty : z.members = 0 <;> simp [empty]

/-- What the retiring of some tags leaves. -/
structure Part.Retired (tags : List Nat) (p q : Part) : Prop where
  zone? : ∀ x, q.zt.zone? x = if x ∈ tags then (p.zt.zone? x).bind Zone.retires else p.zt.zone? x
  pins : q.zt.pins = p.zt.pins.filter fun y => !(decide (y.tag ∈ tags) && (p.zt.zone? y.tag).any fun z => z.members == 0)
  nextTag : q.zt.nextTag = p.zt.nextTag
  reworked : p.zt.Reworked q.zt
  slu : p.zt.pins = [] → q.slu = p.slu

theorem Part.retire_retired (tag : Nat) (p : Part) : Retired [tag] p (p.retire tag) := by
  cases zone : p.zt.zone? tag with
  | none =>
    have same : p.retire tag = p := by rw [retire, zone]
    rw [same]
    refine ⟨fun x => ?_, ?_, rfl, .of_slots rfl, fun _ => rfl⟩
    · split
      · next mem =>
        rw [List.mem_singleton.1 mem, zone]
        rfl
      · rfl
    · refine (List.filter_eq_self.2 fun y _ => ?_).symm
      by_cases named : y.tag = tag <;> simp [named, zone]
  | some z =>
    by_cases empty : z.members = 0
    · have freed : p.retire tag = p.freeZone tag := by
        rw [retire, zone]
        exact if_pos empty
      obtain ⟨nextTag, pins⟩ := p.freeZone_table tag
      rw [freed]
      refine ⟨fun x => ?_, ?_, nextTag, p.freeZone_reworked tag, fun noPins => ?_⟩
      · rw [freeZone_zone?]
        simp only [List.mem_singleton]
        split
        · next named => rw [named, zone, Option.bind_some, Zone.retires, if_pos empty]
        · rfl
      · rw [pins]
        refine List.filter_congr fun y _ => ?_
        by_cases named : y.tag = tag <;> simp [named, zone, empty]
      · rw [freeZone_slu, pinsDropped, noPins]
        rfl
    · have marked : p.retire tag = p.mapZt (·.modifyZone tag fun z => { z with life := .retiring }) := by
        rw [retire, zone]
        exact if_neg empty
      rw [marked]
      refine ⟨fun x => ?_, ?_, rfl,
        .modifyZone (g := fun z => { z with life := .retiring }) tag (fun _ => rfl) _, fun _ => rfl⟩
      · rw [mapZt_zt, Zt.zone?_modifyZone _ _ (by intro z; rfl)]
        simp only [List.mem_singleton]
        split
        · next named => rw [named, zone, Option.bind_some, Zone.retires, if_neg empty, Option.map_some]
        · rfl
      · refine (List.filter_eq_self.2 fun y _ => ?_).symm
        by_cases named : y.tag = tag <;> simp [named, zone, empty]

theorem Part.retireAll_retired (tags : List Nat) (p : Part) : Retired tags p (tags.foldl retire p) := by
  induction tags generalizing p with
  | nil =>
    refine ⟨fun x => (if_neg List.not_mem_nil).symm, ?_, rfl, .of_slots rfl, fun _ => rfl⟩
    exact (List.filter_eq_self.2 fun y _ => by simp).symm
  | cons tag tags ih =>
    have first := p.retire_retired tag
    have rest := ih (p.retire tag)
    refine ⟨fun x => ?_, ?_, rest.nextTag.trans first.nextTag, first.reworked.trans rest.reworked, fun noPins => ?_⟩
    · rw [List.foldl_cons, rest.zone?, first.zone?]
      simp only [List.mem_cons, List.not_mem_nil, or_false]
      by_cases head : x = tag
      · simp only [head, if_true, true_or]
        split
        · exact Zone.retires_twice _
        · rfl
      · simp only [head, if_false, false_or]
    · rw [List.foldl_cons, rest.pins, first.pins, List.filter_filter]
      refine List.filter_congr fun y _ => ?_
      rw [first.zone?]
      simp only [List.mem_cons, List.not_mem_nil, or_false]
      by_cases head : y.tag = tag
      · simp only [head, if_true, true_or, decide_true, Bool.true_and]
        cases p.zt.zone? tag with
        | none => simp
        | some z =>
          unfold Zone.retires
          by_cases empty : z.members = 0 <;> simp [empty]
      · simp [head]
    · have none : (p.retire tag).zt.pins = [] := by rw [first.pins, noPins]; rfl
      rw [List.foldl_cons, rest.slu none, first.slu noPins]

/-! ### What a plan gives each bay (R77) -/

theorem SolveInput.admitted_keys_nodup {i : SolveInput} (ascending : i.bays.Pairwise (· < ·)) :
    (i.plan.admitted.map fun a => a.1.key).Nodup := by
  have born : (i.born.map Component.key).Nodup :=
    ((sortBy_perm ranksBefore _).map _).nodup_iff.2 ((rooms_keys_nodup ascending).sublist (List.filter_sublist.map _))
  rw [plan_admitted, List.map_map]
  exact born.sublist ((List.take_sublist ..).map _)

/-- The tag that a list of components and tags gives a bay, looked up by the component's key. -/
theorem lookupTag_find? {l : List (Component × Nat)} {tags : List Nat} (count : tags.length = l.length)
    (keys : (l.map fun a => a.1.key).Nodup) (b : Nat) :
    (match l.find? fun a => decide (b ∈ a.1.bays) with
      | some a => (lookupTag a.1.key ((l.map fun a => a.1.key).zip tags)).getD 0
      | none => 0)
      = (((l.map Prod.fst).zip tags).find? fun a => decide (b ∈ a.1.bays)).elim 0 Prod.snd := by
  induction l generalizing tags with
  | nil => rfl
  | cons a l ih =>
    cases tags with
    | nil => cases count
    | cons tag tags =>
      obtain ⟨apart, keys⟩ := List.nodup_cons.1 keys
      have ih := ih (Nat.succ.inj count) keys
      simp only [List.map_cons, List.zip_cons_cons, List.find?_cons]
      by_cases inside : b ∈ a.1.bays
      · simp [inside, lookupTag]
      · simp only [inside, decide_false]
        rw [← ih]
        cases found : l.find? fun a => decide (b ∈ a.1.bays) with
        | none => rfl
        | some a' =>
          have differ : a.1.key ≠ a'.1.key := fun same =>
            apart (List.mem_map.2 ⟨a', List.mem_of_find?_eq_some found, same.symm⟩)
          simp [lookupTag, differ]

theorem SolveInput.plannedTag_eq {i : SolveInput} (ascending : i.bays.Pairwise (· < ·)) {tags : List Nat}
    (count : tags.length = i.plan.admitted.length) (b : Nat) :
    i.plan.plannedTag ((i.plan.admitted.map fun a => a.1.key).zip tags) b = plannedBy i.plan tags b := by
  unfold Plan.plannedTag plannedBy
  cases i.plan.kept.find? fun k => decide (b ∈ k.1.bays) with
  | some k => rfl
  | none => exact lookupTag_find? count (admitted_keys_nodup ascending) b

section
variable {i : SolveInput} {tags : List Nat}

theorem SolveInput.notKept_of_born {c : Component} (born : c ∈ i.born) {b : Nat} (inside : b ∈ c.bays) :
    (i.plan.kept.find? fun k => decide (b ∈ k.1.bays)) = none := by
  rw [find?_bays (fun _ => kept_components) (component_of_born born) inside]
  refine List.find?_eq_none.2 fun k held found => (mem_born.1 born).2 k.2 ?_
  rw [← of_decide_eq_true found]
  exact held

theorem SolveInput.planned_born (ascending : i.bays.Pairwise (· < ·)) {k : Nat} {c : Component} {parent tag b : Nat}
    (entry : i.plan.admitted[k]? = some (c, parent)) (given : tags[k]? = some tag) (inside : b ∈ c.bays) :
    plannedBy i.plan tags b = tag := by
  have admitted := List.mem_of_getElem? entry
  have born := (mem_admitted admitted).1
  unfold plannedBy
  rw [notKept_of_born born inside]
  have zipped : ((i.plan.admitted.map Prod.fst).zip tags)[k]? = some (c, tag) := by
    rw [List.getElem?_zip_eq_some, List.getElem?_map, entry]
    exact ⟨rfl, given⟩
  dsimp only
  cases found : ((i.plan.admitted.map Prod.fst).zip tags).find? fun a => decide (b ∈ a.1.bays) with
  | none => exact absurd (decide_eq_true inside) (List.find?_eq_none.1 found _ (List.mem_of_getElem? zipped))
  | some a =>
    have there : b ∈ a.1.bays :=
      of_decide_eq_true (List.find?_some (p := fun a : Component × Nat => decide (b ∈ a.1.bays)) found)
    obtain ⟨j, at'⟩ := List.mem_iff_getElem?.1 (List.mem_of_find?_eq_some found)
    obtain ⟨first, second⟩ := List.getElem?_zip_eq_some.1 at'
    rw [List.getElem?_map, Option.map_eq_some_iff] at first
    obtain ⟨x, entry', named⟩ := first
    have same : a.1 = c := component_eq_of_bay (named ▸ admitted_components (List.mem_of_getElem? entry')) (admitted_components admitted) there inside
    have keys := admitted_keys_nodup ascending
    have place : j = k := by
      have keyed {m : Nat} {y : Component × Nat} (at' : i.plan.admitted[m]? = some y) :
          (i.plan.admitted.map fun a => a.1.key)[m]? = some y.1.key := by rw [List.getElem?_map, at']; rfl
      have first := keyed entry'
      rw [named, same] at first
      exact (List.getElem?_inj (List.getElem?_eq_some_iff.1 first).1 keys).1 (first.trans (keyed entry).symm)
    rw [place, given] at second
    exact (Option.some.inj second).symm

end

end Sys2Proof.Machine

/-!
A commit while no bay moves (R77, R79, R80, R86, R87, R91, R97, R99): the zone table and the bays that it leaves.
-/
namespace Sys2Proof.Machine

/-! ### What the solve reads (R65) -/

theorem Part.solveInput_bays (edges : List EdgeState) (p : Part) : (p.solveInput edges).bays = p.fm.nodes.map Prod.fst := by
  show (p.fm.nodes.map fun x => (x.1, x.2.tag)).map Prod.fst = _
  rw [List.map_map]
  rfl

theorem Part.solveInput_ascending (edges : List EdgeState) (p : Part) : (p.solveInput edges).bays.Pairwise (· < ·) := by
  rw [solveInput_bays]
  exact p.fm.nodes_sorted

theorem Part.solveInput_tag {edges : List EdgeState} {p : Part} {b tag : Nat} (tagged : (p.solveInput edges).tag b = some tag) :
    ∃ r, p.fm.node? b = some r ∧ r.tag = tag := by
  unfold SolveInput.tag lookupTag at tagged
  obtain ⟨x, found, rfl⟩ := Option.map_eq_some_iff.1 tagged
  have named : x.1 = b := by simpa using List.find?_some found
  obtain ⟨y, node, rfl⟩ := List.mem_map.1 (List.mem_of_find?_eq_some found)
  exact ⟨y.2, named ▸ (p.fm.mem_nodes y.1 y.2).1 node, rfl⟩

theorem Part.mem_inputZones {edges : List EdgeState} {p : Part} {tag : Nat} :
    tag ∈ (p.solveInput edges).zones ↔ ∃ z ∈ p.zt.zones, z.life = .live ∧ z.tag ≠ 0 ∧ z.tag = tag := by
  show tag ∈ (p.zt.zones.filter fun z => z.life = .live ∧ z.tag ≠ 0).map Zone.tag ↔ _
  simp [and_assoc]

/-! ### Before the commit no bay moves -/

section
variable {p : Part} (table : ZoneTable p) (still : p.cut.list = [])
include table still

theorem ZoneTable.nextTag_none {b : Nat} {r : BayRec} (node : p.fm.node? b = some r) : r.nextTag = none := by
  by_contra moves
  have mem : b ∈ p.movingBays := (p.movingBays_iff b).2 ⟨r, node, Option.isSome_iff_ne_none.2 moves⟩
  rw [← table.listed, still] at mem
  cases mem

theorem ZoneTable.all_live {tag : Nat} {z : Zone} (zone : p.zt.zone? tag = some z) : z.life = .live := by
  cases life : z.life with
  | live => rfl
  | born =>
    obtain ⟨b, r, node, next⟩ := table.awaited zone life
    rw [table.nextTag_none still node] at next
    cases next
  | retiring =>
    obtain ⟨some, all⟩ := table.leaving zone life
    rw [table.counted zone] at some
    obtain ⟨b, member⟩ := List.exists_mem_of_length_pos some
    obtain ⟨r, node, named⟩ := (p.fm.mem_membersOf tag b).1 member
    have moves := all b r node named
    rw [table.nextTag_none still node] at moves
    cases moves

variable {edges : List EdgeState}

theorem ZoneTable.mem_inputZones {tag : Nat} :
    tag ∈ (p.solveInput edges).zones ↔ tag ≠ 0 ∧ ∃ z, p.zt.zone? tag = some z := by
  rw [Part.mem_inputZones]
  constructor
  · rintro ⟨z, mem, -, notZero, rfl⟩
    exact ⟨notZero, z, table.distinct.zone?_eq mem⟩
  · rintro ⟨notZero, z, zone⟩
    have named := Zt.zone?_tag _ _ _ zone
    exact ⟨z, Zt.mem_zones_of_zone? zone, table.all_live still zone, named ▸ notZero, named⟩

omit still in
theorem ZoneTable.parent_zone {a : Component × Nat} (mem : a ∈ (p.solveInput edges).plan.admitted) : ∃ z, p.zt.zone? a.2 = some z := by
  have positive := (SolveInput.parent_best (SolveInput.admitted_components mem)).1
  rw [← (SolveInput.mem_admitted mem).2] at positive
  obtain ⟨b, -, tagged⟩ := SolveInput.overlap_pos.1 positive
  obtain ⟨r, node, named⟩ := Part.solveInput_tag tagged
  obtain ⟨z, zone, -⟩ := table.housed node
  exact ⟨z, named ▸ zone⟩

omit still in
/-- A component has a bay, so there is a floor and zone 0 is in slot 0. -/
theorem ZoneTable.slot_zero {c : Component} (mem : c ∈ (p.solveInput edges).components) :
    ∃ z, p.zt.slots[0]? = some (some z) ∧ z.tag = 0 ∧ z.life = .live := by
  refine table.floor fun noFloor => ?_
  obtain ⟨r, node⟩ := Part.roomable_of_component mem (SolveInput.key_mem mem)
  unfold FloorModel.node? FloorModel.bay? at node
  rw [table.bare noFloor] at node
  simp at node

end

theorem freeSlots_count (slots : List (Option Zone)) : (slots.filterMap id).length + (freeSlots slots).length = slots.length := by
  induction slots with
  | nil => rfl
  | cons o slots ih =>
    rw [freeSlots_cons]
    cases o with
    | none =>
      rw [List.filterMap_cons_none (f := id) rfl, if_pos rfl]
      simp only [List.length_append, List.length_map, List.length_cons, List.length_nil]
      omega
    | some z =>
      rw [List.filterMap_cons_some (f := id) rfl, if_neg nofun]
      simp only [List.nil_append, List.length_map, List.length_cons]
      omega

/-- R74: the FREE slots are enough for what may be admitted. -/
theorem ZoneTable.room {p : Part} (table : ZoneTable p) (still : p.cut.list = []) (slots : p.zt.slots.length = 64) (edges : List EdgeState) :
    (p.solveInput edges).plan.admitted.length ≤ (freeSlots p.zt.slots).length := by
  have count := freeSlots_count p.zt.slots
  have zones : (p.zt.zones.map Zone.tag).length ≤ (0 :: (p.solveInput edges).zones).length := by
    refine (List.subperm_of_subset table.distinct fun tag mem => ?_).length_le
    obtain ⟨z, held, rfl⟩ := List.mem_map.1 mem
    by_cases zero : z.tag = 0
    · rw [zero]
      exact List.mem_cons_self
    · exact List.mem_cons_of_mem _ ((table.mem_inputZones still).2 ⟨zero, z, table.distinct.zone?_eq held⟩)
  have admitted := SolveInput.admitted_length (p.solveInput edges)
  rw [List.length_map, List.length_cons] at zones
  rw [show p.zt.slots.filterMap id = p.zt.zones from rfl] at count
  unfold places at admitted
  omega

/-! ### The zones and bays that a commit leaves -/

theorem Part.zoned_fm (plan : Plan) (p : Part) : (p.zoned plan).fm = p.fm.mapNodes (BayRec.planned plan (p.tagsGiven plan)) := by
  have retired (zt : Zt) : (plan.retiring.foldl retire { p with zt := zt }).fm = p.fm :=
    foldl_keeps retire (·.fm) (fun p t => (p.retire_blocks t).2.2.2) _ _
  exact congrArg (fun f : FloorModel => f.mapNodes (BayRec.planned plan (p.tagsGiven plan))) (retired _)

/-- R79, step 3, R97, R99: a zone's counts from the bays, and zone 0's folded bays. -/
def Zone.recounted (plan : Plan) (f : FloorModel) (z : Zone) : Zone :=
  { z with
    incoming := (f.nodes.filter fun x => x.2.nextTag = some z.tag).length
    outgoing := (f.nodes.filter fun x => x.2.tag = z.tag ∧ x.2.nextTag.isSome).length
    foldedBays := if z.tag = 0 then plan.overflowBays else z.foldedBays }

/-- The part of a commit whose born zones are allocated. -/
def Part.withBorn (plan : Plan) (p : Part) : Part :=
  { p with zt := ((p.zt.mapZones fun z => { z with parent := none }).allocateAll plan.admitted).1 }

theorem Part.zoned_zt (plan : Plan) (p : Part) :
    (p.zoned plan).zt = (plan.retiring.foldl retire (p.withBorn plan)).zt.mapZones (Zone.recounted plan (p.zoned plan).fm) := by
  unfold zoned
  dsimp only
  rw [mapZt_zt, mapZt_fm]
  unfold setCounts
  rw [mapZt_zt, mapZt_fm, Zt.modifyZone]
  unfold Zt.mapZones
  rw [List.map_map]
  refine congrArg (fun slots => { (plan.retiring.foldl retire (p.withBorn plan)).zt with slots := slots }) (List.map_congr_left fun o _ => ?_)
  cases o with
  | none => rfl
  | some z =>
    show some (if z.tag = 0 then _ else _) = some _
    unfold Zone.recounted
    split <;> rfl

theorem Part.zoned_zone? (plan : Plan) (p : Part) (tag : Nat) :
    (p.zoned plan).zt.zone? tag =
      ((plan.retiring.foldl retire (p.withBorn plan)).zt.zone? tag).map (Zone.recounted plan (p.zoned plan).fm) := by
  rw [zoned_zt]
  exact Zt.zone?_mapZones (Zone.recounted plan (p.zoned plan).fm) (fun _ => rfl) _ tag

/-- R99: the incoming count of a commit's zone. -/
theorem Part.zoned_incoming (plan : Plan) (p : Part) (planned : Nat → Nat) (same : ∀ b, plan.plannedTag (p.tagsGiven plan) b = planned b)
    (tag : Nat) : ((p.zoned plan).fm.nodes.filter fun x => x.2.nextTag = some tag).length
      = (p.fm.nodes.filter fun x => planned x.1 ≠ x.2.tag ∧ planned x.1 = tag).length := by
  rw [zoned_fm, FloorModel.nodes_mapNodes, List.filter_map, List.length_map]
  refine congrArg List.length (List.filter_congr fun x _ => ?_)
  simp only [Function.comp_apply, BayRec.planned, same]
  by_cases own : planned x.1 = x.2.tag <;> simp [own]

/-- R99: the outgoing count of a commit's zone. -/
theorem Part.zoned_outgoing (plan : Plan) (p : Part) (planned : Nat → Nat) (same : ∀ b, plan.plannedTag (p.tagsGiven plan) b = planned b)
    (tag : Nat) : ((p.zoned plan).fm.nodes.filter fun x => x.2.tag = tag ∧ x.2.nextTag.isSome).length
      = (p.fm.nodes.filter fun x => planned x.1 ≠ x.2.tag ∧ x.2.tag = tag).length := by
  rw [zoned_fm, FloorModel.nodes_mapNodes, List.filter_map, List.length_map]
  refine congrArg List.length (List.filter_congr fun x _ => ?_)
  simp only [Function.comp_apply, BayRec.planned, same]
  by_cases own : planned x.1 = x.2.tag <;> simp [own]

/-- What a commit leaves of the zones, with the tags it gives. -/
structure Part.Committed (plan : Plan) (tags : List Nat) (p : Part) : Prop where
  count : tags.length = plan.admitted.length
  order : TagsGiven (p.zt.zones.map Zone.tag) p.zt.nextTag tags (p.zoned plan).zt.nextTag
  planned : ∀ b, plan.plannedTag (p.tagsGiven plan) b = plannedBy plan tags b
  writes : CommitWritesZones plan tags p (p.zoned plan)
  distinct : (p.zoned plan).zt.Distinct
  fresh : ∀ tag ∈ tags, p.zt.zone? tag = none
  apart : tags.Nodup

theorem Zt.mapZones_slot {g : Zone → Zone} {t : Zt} {n : Nat} {z : Zone} (held : t.slots[n]? = some (some z)) :
    (t.mapZones g).slots[n]? = some (some (g z)) := by
  rw [mapZones, List.getElem?_map, held]
  rfl

theorem Zt.mapZones_freeSlots (g : Zone → Zone) (t : Zt) : freeSlots (t.mapZones g).slots = freeSlots t.slots := by
  unfold freeSlots mapZones
  rw [List.length_map]
  refine List.filter_congr fun n _ => ?_
  rw [List.getElem?_map]
  cases t.slots[n]? with
  | none => rfl
  | some o => cases o <;> rfl

/-- R86: slot 0 is zone 0's, so the FREE ones are among 1..63. -/
theorem freeSlots_of_zero {slots : List (Option Zone)} (length : slots.length = 64) {z : Zone} (zero : slots[0]? = some (some z)) :
    freeSlots slots = (List.range' 1 63).filter fun n => slots[n]? == some none := by
  unfold freeSlots
  rw [length, List.range_eq_range', List.range'_succ, List.filter_cons_of_neg (by simp [zero])]

theorem TagsGiven.positive {used tags : List Nat} {counter after : Nat} (h : TagsGiven used counter tags after) :
    ∀ tag ∈ tags, 1 ≤ tag := by
  induction tags generalizing used counter with
  | nil => exact nofun
  | cons tag tags ih =>
    obtain ⟨⟨k, -, eq, -, -⟩, rest⟩ := h
    refine List.forall_mem_cons.2 ⟨?_, ih rest⟩
    omega

theorem plannedBy_cases (plan : Plan) {tags : List Nat} (b : Nat) :
    (∃ (c : Component) (z : Nat), (c, z) ∈ plan.kept ∧ b ∈ c.bays ∧ plannedBy plan tags b = z)
      ∨ (∃ (k : Nat) (c : Component) (parent tag : Nat), plan.admitted[k]? = some (c, parent) ∧ tags[k]? = some tag ∧ b ∈ c.bays ∧ plannedBy plan tags b = tag)
      ∨ plannedBy plan tags b = 0 := by
  unfold plannedBy
  cases kept : plan.kept.find? fun k => decide (b ∈ k.1.bays) with
  | some k =>
    refine .inl ⟨k.1, k.2, List.mem_of_find?_eq_some kept, ?_, rfl⟩
    exact of_decide_eq_true (List.find?_some (p := fun k : Component × Nat => decide (b ∈ k.1.bays)) kept)
  | none =>
    cases born : ((plan.admitted.map Prod.fst).zip tags).find? fun a => decide (b ∈ a.1.bays) with
    | none => exact .inr (.inr rfl)
    | some a =>
      obtain ⟨k, at'⟩ := List.mem_iff_getElem?.1 (List.mem_of_find?_eq_some born)
      obtain ⟨first, second⟩ := List.getElem?_zip_eq_some.1 at'
      rw [List.getElem?_map, Option.map_eq_some_iff] at first
      obtain ⟨x, entry, named⟩ := first
      refine .inr (.inl ⟨k, x.1, x.2, a.2, entry, second, ?_, rfl⟩)
      rw [named]
      exact of_decide_eq_true (List.find?_some (p := fun a : Component × Nat => decide (b ∈ a.1.bays)) born)

theorem SolveInput.bays_filter {i : SolveInput} {c : Component} (mem : c ∈ i.components) : (i.bays.filter fun b => b ∈ c.bays) = c.bays := by
  obtain ⟨k, -, -, rfl⟩ := (i.mem_components c).1 mem
  refine List.filter_congr fun b roomable => ?_
  have iff := i.mem_componentOf k b
  simp only [roomable, true_and] at iff
  simp only [iff, beq_eq_decide]

/-- R94: a zone whose parent is made absent. -/
def Zone.orphaned (z : Zone) : Zone := { z with parent := none }

theorem Zt.orphaned_zone? (t : Zt) (tag : Nat) : (t.mapZones Zone.orphaned).zone? tag = (t.zone? tag).map Zone.orphaned :=
  zone?_mapZones Zone.orphaned (fun _ => rfl) t tag

section
variable {p : Part} {edges : List EdgeState} {tags : List Nat} {given : List (Nat × Nat)} {t' : Zt}
  (table : ZoneTable p) (still : p.cut.list = [])
  (h : (p.zt.mapZones Zone.orphaned).Allocated (p.solveInput edges).plan.admitted tags t' given)
include table still h

omit table still in
theorem Zt.Allocated.fresh' {tag : Nat} (mem : tag ∈ tags) : p.zt.zone? tag = none := by
  have none := h.fresh tag mem
  rwa [Zt.orphaned_zone?, Option.map_eq_none_iff] at none

/-- R77: the bays planned for a born zone are its component's. -/
theorem Zt.Allocated.planned_iff {k : Nat} {c : Component} {parent tag : Nat}
    (entry : (p.solveInput edges).plan.admitted[k]? = some (c, parent)) (named : tags[k]? = some tag) (b : Nat) :
    plannedBy (p.solveInput edges).plan tags b = tag ↔ b ∈ c.bays := by
  refine ⟨fun planned => ?_, SolveInput.planned_born (p.solveInput_ascending edges) entry named⟩
  have fresh := h.fresh' (List.mem_of_getElem? named)
  obtain ⟨d, z, kept, -, eq⟩ | ⟨j, d, parent', tag', entry', named', inside, eq⟩ | zero := plannedBy_cases (p.solveInput edges).plan (tags := tags) b
  · obtain ⟨room, continued⟩ := SolveInput.mem_kept.1 kept
    have held := (SolveInput.bestZone_eq_some_iff.1 ((SolveInput.continues_eq_some_iff room).1 continued).1).1
    obtain ⟨-, y, zone⟩ := (table.mem_inputZones still).1 held
    rw [← eq, planned, fresh] at zone
    cases zone
  · have place : j = k := (List.getElem?_inj (List.getElem?_eq_some_iff.1 named').1 h.apart).1
      (named'.trans ((eq.symm.trans planned) ▸ named.symm))
    rw [place, entry] at entry'
    cases entry'
    exact inside
  · have := h.order.positive tag (List.mem_of_getElem? named)
    omega

/-- R99: the bays that a born zone awaits. -/
theorem Zt.Allocated.incoming {k : Nat} {c : Component} {parent tag : Nat}
    (entry : (p.solveInput edges).plan.admitted[k]? = some (c, parent)) (named : tags[k]? = some tag) :
    (p.fm.nodes.filter fun x => plannedBy (p.solveInput edges).plan tags x.1 ≠ x.2.tag
      ∧ plannedBy (p.solveInput edges).plan tags x.1 = tag).length = c.bays.length := by
  have fresh := h.fresh' (List.mem_of_getElem? named)
  have component := SolveInput.admitted_components (List.mem_of_getElem? entry)
  have own : (p.fm.nodes.filter fun x => plannedBy (p.solveInput edges).plan tags x.1 ≠ x.2.tag
      ∧ plannedBy (p.solveInput edges).plan tags x.1 = tag) = p.fm.nodes.filter fun x => x.1 ∈ c.bays := by
    refine List.filter_congr fun x mem => ?_
    have iff := h.planned_iff table still entry named x.1
    have apart : x.2.tag ≠ tag := by
      intro same
      obtain ⟨z, zone, -⟩ := table.housed ((p.fm.mem_nodes x.1 x.2).1 mem)
      rw [same, fresh] at zone
      cases zone
    refine decide_eq_decide.2 ⟨fun both => iff.1 both.2, fun inside => ⟨?_, iff.2 inside⟩⟩
    rw [iff.2 inside]
    exact apart.symm
  have bays := SolveInput.bays_filter component
  rw [p.solveInput_bays, List.filter_map] at bays
  rw [own]
  exact (List.length_map Prod.fst).symm.trans (congrArg List.length bays)

omit table still in
/-- R79, step 2: a zone after the retiring of a plan's tags. -/
theorem Zt.Allocated.retired_zone? {tag : Nat} {z : Zone} (alloc : (p.withBorn (p.solveInput edges).plan).zt = t')
    (zone : p.zt.zone? tag = some z) :
    ((p.solveInput edges).plan.retiring.foldl Part.retire (p.withBorn (p.solveInput edges).plan)).zt.zone? tag =
      if tag ∈ (p.solveInput edges).plan.retiring then z.orphaned.retires else some z.orphaned := by
  have kept := h.kept (by rw [Zt.orphaned_zone?, zone]; rfl : (p.zt.mapZones Zone.orphaned).zone? tag = some z.orphaned)
  rw [(Part.retireAll_retired ..).zone?, alloc, kept]
  rfl

omit h in
/-- A tag that no zone holds is no retiring one. -/
theorem ZoneTable.not_retiring {tag : Nat} (none : p.zt.zone? tag = none) : tag ∉ (p.solveInput edges).plan.retiring := by
  intro retiring
  obtain ⟨-, z, zone⟩ := (table.mem_inputZones still).1 (SolveInput.mem_retiring.1 retiring).1
  rw [none] at zone
  cases zone

omit table still in
/-- A zone that a commit does not free keeps its slot. -/
theorem Zt.Allocated.slot {n : Nat} {z y : Zone} (reworked : t'.Reworked (p.zoned (p.solveInput edges).plan).zt)
    (held : t'.slots[n]? = some (some z)) (there : (p.zoned (p.solveInput edges).plan).zt.zone? z.tag = some y) :
    ∃ z', (p.zoned (p.solveInput edges).plan).zt.slots[n]? = some (some z') ∧ z'.tag = z.tag :=
  ⟨y, reworked.slot h.distinct held there, Zt.zone?_tag _ _ _ there⟩

theorem Zt.Allocated.committed (slots : p.zt.slots.length = 64) (alloc : (p.withBorn (p.solveInput edges).plan).zt = t')
    (tagsGiven : p.tagsGiven (p.solveInput edges).plan = given) : p.Committed (p.solveInput edges).plan tags := by
  have ascending := p.solveInput_ascending edges
  have planned (b : Nat) : (p.solveInput edges).plan.plannedTag (p.tagsGiven (p.solveInput edges).plan) b
      = plannedBy (p.solveInput edges).plan tags b := by
    rw [tagsGiven, h.given]
    exact SolveInput.plannedTag_eq ascending h.count b
  have incoming := p.zoned_incoming (p.solveInput edges).plan _ planned
  have outgoing := p.zoned_outgoing (p.solveInput edges).plan _ planned
  have retired := Part.retireAll_retired (p.solveInput edges).plan.retiring (p.withBorn (p.solveInput edges).plan)
  have zone? := p.zoned_zone? (p.solveInput edges).plan
  have reworked : t'.Reworked (p.zoned (p.solveInput edges).plan).zt := by
    rw [p.zoned_zt, ← alloc]
    exact retired.reworked.trans (.mapZones (g := Zone.recounted _ _) (fun _ => rfl) _)
  have tagsSame : (p.zt.mapZones Zone.orphaned).zones.map Zone.tag = p.zt.zones.map Zone.tag := by
    rw [Zt.zones_mapZones, List.map_map]
    rfl
  have nextTag : (p.zoned (p.solveInput edges).plan).zt.nextTag = t'.nextTag := by
    rw [p.zoned_zt, ← alloc]
    exact retired.nextTag
  have freeSlotsSame := p.zt.mapZones_freeSlots Zone.orphaned
  /- A zone that was there. -/
  have old {tag : Nat} {z : Zone} (zone : p.zt.zone? tag = some z) : (p.zoned (p.solveInput edges).plan).zt.zone? tag =
      if freedAtCommit (p.solveInput edges).plan z then none else some
        { z with
          parent := none
          life := if tag ∈ (p.solveInput edges).plan.retiring then .retiring else z.life
          incoming := (p.fm.nodes.filter fun x => plannedBy (p.solveInput edges).plan tags x.1 ≠ x.2.tag
            ∧ plannedBy (p.solveInput edges).plan tags x.1 = tag).length
          outgoing := (p.fm.nodes.filter fun x => plannedBy (p.solveInput edges).plan tags x.1 ≠ x.2.tag ∧ x.2.tag = tag).length
          foldedBays := if tag = 0 then (p.solveInput edges).plan.overflowBays else z.foldedBays } := by
    have named : z.tag = tag := Zt.zone?_tag _ _ _ zone
    rw [zone?, h.retired_zone? alloc zone, ← incoming tag, ← outgoing tag]
    unfold freedAtCommit
    rw [named]
    by_cases retires : tag ∈ (p.solveInput edges).plan.retiring
    · by_cases empty : z.members = 0
      · simp [retires, empty, Zone.retires, Zone.orphaned]
      · simp [retires, empty, Zone.retires, Zone.orphaned, Zone.recounted, named]
    · simp [retires, Zone.orphaned, Zone.recounted, named]
  /- A zone born. -/
  have born {k : Nat} {c : Component} {parent tag : Nat} (entry : (p.solveInput edges).plan.admitted[k]? = some (c, parent))
      (named : tags[k]? = some tag) : ∃ z, p.zt.zone? parent = some z ∧ (p.zoned (p.solveInput edges).plan).zt.zone? tag = some
        ((Zone.newborn tag parent z.settings).recounted (p.solveInput edges).plan (p.zoned (p.solveInput edges).plan).fm) := by
    obtain ⟨z, zone⟩ := table.parent_zone (List.mem_of_getElem? entry)
    have fresh := h.fresh' (List.mem_of_getElem? named)
    have settings : (p.zt.mapZones Zone.orphaned).parentSettings parent = z.settings := by
      unfold Zt.parentSettings
      rw [Zt.orphaned_zone?, zone]
      rfl
    refine ⟨z, zone, ?_⟩
    rw [zone?, retired.zone?, if_neg (table.not_retiring still fresh), alloc, h.born entry named, settings]
    rfl
  refine ⟨h.count, by rw [nextTag, ← tagsSame]; exact h.order, planned, ?_, reworked.distinct h.distinct,
    fun tag => h.fresh', h.apart⟩
  refine ⟨fun b r node => ?_, fun z mem => ?_, fun k c parent tag entry named => ?_, fun tag none notGiven => ?_, fun n z held stays => ?_,
    fun k n tag free named => ?_, ?_⟩
  · rw [p.zoned_node?, node, Option.map_some, BayRec.planned, planned]
  · exact old (table.distinct.zone?_eq mem)
  · obtain ⟨z, zone, there⟩ := born entry named
    have fresh := h.fresh' (List.mem_of_getElem? named)
    have positive := h.order.positive tag (List.mem_of_getElem? named)
    have leaves : (p.fm.nodes.filter fun x => plannedBy (p.solveInput edges).plan tags x.1 ≠ x.2.tag ∧ x.2.tag = tag) = [] := by
      refine List.filter_eq_nil_iff.2 fun x mem both => ?_
      obtain ⟨y, held, -⟩ := table.housed ((p.fm.mem_nodes x.1 x.2).1 mem)
      rw [(of_decide_eq_true both).2, fresh] at held
      cases held
    refine ⟨z, zone, there.trans (congrArg some ?_)⟩
    have incoming := (incoming tag).trans (h.incoming table still entry named)
    have outgoing := (outgoing tag).trans (congrArg List.length leaves)
    unfold Zone.recounted Zone.newborn
    dsimp only
    rw [incoming, outgoing, if_neg (by omega)]
    rfl
  · rw [zone?, retired.zone?, if_neg (table.not_retiring still none), alloc,
      h.absent (by rw [Zt.orphaned_zone?, none]; rfl) notGiven]
    rfl
  · have zone := table.distinct.zone?_eq (Zt.mem_zones.2 (List.mem_of_getElem? held))
    have there := old zone
    rw [stays] at there
    exact Zt.Allocated.slot (z := z.orphaned) h reworked (h.held (Zt.mapZones_slot held)) there
  · have given' := List.getElem?_eq_some_iff.1 named
    have inside : k < (p.solveInput edges).plan.admitted.length := h.count ▸ given'.1
    obtain ⟨a, entry⟩ : ∃ a, (p.solveInput edges).plan.admitted[k]? = some a := ⟨_, List.getElem?_eq_getElem inside⟩
    obtain ⟨zero, zeroHeld, -⟩ := table.slot_zero (SolveInput.admitted_components (List.mem_of_getElem? entry))
    have slots := freeSlotsSame.trans (freeSlots_of_zero slots zeroHeld)
    obtain ⟨z, held, tagged⟩ := h.taken (slots ▸ free) named
    obtain ⟨parentZone, -, there⟩ := born (c := a.1) (parent := a.2) entry named
    obtain ⟨z', held', same⟩ := Zt.Allocated.slot (z := z) h reworked held (by rw [tagged]; exact there)
    exact ⟨z', held', same.trans tagged⟩
  · rw [p.zoned_zt]
    show ((p.solveInput edges).plan.retiring.foldl Part.retire (p.withBorn (p.solveInput edges).plan)).zt.pins = _
    rw [retired.pins, alloc, h.pins]
    refine List.filter_congr fun y _ => ?_
    cases zone : p.zt.zone? y.tag with
    | none => simp [table.not_retiring still zone]
    | some z =>
      have named : z.tag = y.tag := Zt.zone?_tag _ _ _ zone
      rw [h.kept (by rw [Zt.orphaned_zone?, zone]; rfl : (p.zt.mapZones Zone.orphaned).zone? y.tag = some z.orphaned)]
      simp [freedAtCommit, named, Zone.orphaned]

end

theorem Part.committed {p : Part} (valid : p.zt.Valid) (table : ZoneTable p) (still : p.cut.list = []) (edges : List EdgeState) :
    ∃ tags, p.Committed (p.solveInput edges).plan tags := by
  obtain ⟨slots, counter, -, -⟩ := valid
  have count := freeSlots_count p.zt.slots
  have zones : (p.zt.mapZones Zone.orphaned).zones.length = p.zt.zones.length := by rw [Zt.zones_mapZones, List.length_map]
  have tagsSame : (p.zt.mapZones Zone.orphaned).zones.map Zone.tag = p.zt.zones.map Zone.tag := by
    rw [Zt.zones_mapZones, List.map_map]
    rfl
  have admittedFew := SolveInput.admitted_length (p.solveInput edges)
  obtain ⟨tags, h⟩ := Zt.allocateAll_spec (t := p.zt.mapZones Zone.orphaned)
    ((Zt.Reworked.mapZones (g := Zone.orphaned) (fun _ => rfl) p.zt).distinct table.distinct) counter (p.solveInput edges).plan.admitted
    (fun some => by
      obtain ⟨a, mem⟩ := List.exists_mem_of_ne_nil _ some
      obtain ⟨z, held, -⟩ := table.slot_zero (SolveInput.admitted_components mem)
      exact ⟨_, Zt.mapZones_slot held⟩)
    (by rw [Zt.mapZones_freeSlots]; exact table.room still slots edges)
    (by
      rw [zones]
      rw [show p.zt.slots.filterMap id = p.zt.zones from rfl] at count
      unfold places at admittedFew
      omega)
    (fun a mem => by
      obtain ⟨z, zone⟩ := table.parent_zone mem
      exact ⟨_, by rw [Zt.orphaned_zone?, zone]; rfl⟩)
  exact ⟨tags, h.committed table still slots rfl rfl⟩

end Sys2Proof.Machine

/-!
The zone table, the bays' tags and the cutover list kept in agreement by every step (R65, R86, R89, R98, R110, R111).
-/
namespace Sys2Proof.Machine

/-! ### A commit -/

section
variable {p : Part} {edges : List EdgeState} {tags : List Nat} (table : ZoneTable p) (still : p.cut.list = [])
  (c : p.Committed (p.solveInput edges).plan tags)
include table still c

/-- A zone after a commit was there and is not freed, or is born. -/
theorem Part.Committed.zone {tag : Nat} {z' : Zone} (zone : (p.zoned (p.solveInput edges).plan).zt.zone? tag = some z') :
    (∃ z, p.zt.zone? tag = some z ∧ freedAtCommit (p.solveInput edges).plan z = false ∧ z'.members = z.members
        ∧ z'.life = if tag ∈ (p.solveInput edges).plan.retiring then .retiring else .live)
      ∨ ∃ (k : Nat) (d : Component) (parent : Nat), (p.solveInput edges).plan.admitted[k]? = some (d, parent) ∧ tags[k]? = some tag
        ∧ z'.members = 0 ∧ z'.life = .born := by
  obtain ⟨-, old, born, absent, -⟩ := c.writes
  cases before : p.zt.zone? tag with
  | some z =>
    have named := Zt.zone?_tag _ _ _ before
    have after := old z (Zt.mem_zones_of_zone? before)
    rw [named, zone] at after
    split at after
    · cases after
    · next stays =>
      cases after
      refine .inl ⟨z, rfl, by simpa using stays, rfl, ?_⟩
      dsimp only
      rw [table.all_live still before]
  | none =>
    by_cases given : tag ∈ tags
    · obtain ⟨k, at'⟩ := List.mem_iff_getElem?.1 given
      have inside : k < (p.solveInput edges).plan.admitted.length := c.count ▸ (List.getElem?_eq_some_iff.1 at').1
      obtain ⟨a, entry⟩ : ∃ a, (p.solveInput edges).plan.admitted[k]? = some a := ⟨_, List.getElem?_eq_getElem inside⟩
      obtain ⟨y, -, there⟩ := born k a.1 a.2 tag entry at'
      rw [zone] at there
      cases there
      exact .inr ⟨k, a.1, a.2, entry, at', rfl, rfl⟩
    · rw [absent tag before given] at zone
      cases zone

/-- A zone that does not retire stays LIVE. -/
theorem Part.Committed.stays {tag : Nat} {z : Zone} (zone : p.zt.zone? tag = some z) (kept : tag ∉ (p.solveInput edges).plan.retiring) :
    ∃ z', (p.zoned (p.solveInput edges).plan).zt.zone? tag = some z' ∧ z'.life = .live := by
  obtain ⟨-, old, -⟩ := c.writes
  have named := Zt.zone?_tag _ _ _ zone
  have after := old z (Zt.mem_zones_of_zone? zone)
  rw [named, if_neg (by simp [freedAtCommit, named, kept]), if_neg kept] at after
  exact ⟨_, after, show z.life = .live from table.all_live still zone⟩

omit table still in
/-- A bay after a commit. -/
theorem Part.Committed.node {b : Nat} {r' : BayRec} (node : (p.zoned (p.solveInput edges).plan).fm.node? b = some r') :
    ∃ r, p.fm.node? b = some r ∧ r'.tag = r.tag
      ∧ r'.nextTag = if plannedBy (p.solveInput edges).plan tags b = r.tag then none else some (plannedBy (p.solveInput edges).plan tags b) := by
  rw [Part.zoned_node?, Option.map_eq_some_iff] at node
  obtain ⟨r, held, rfl⟩ := node
  refine ⟨r, held, rfl, ?_⟩
  unfold BayRec.planned
  dsimp only
  rw [c.planned]

omit table still c in
theorem Part.zoned_membersOf (plan : Plan) (tag : Nat) : (p.zoned plan).fm.membersOf tag = p.fm.membersOf tag := by
  refine FloorModel.membersOf_congr (fun b => ?_) tag
  rw [Part.zoned_node?, Option.map_map]
  rfl

omit c in
/-- No retiring zone is zone 0 or one that a component continues. -/
theorem ZoneTable.retiring_apart {tag : Nat} (retiring : tag ∈ (p.solveInput edges).plan.retiring) :
    tag ≠ 0 ∧ tag ∉ (p.solveInput edges).plan.kept.map Prod.snd :=
  ⟨((table.mem_inputZones still).1 (SolveInput.mem_retiring.1 retiring).1).1, (SolveInput.mem_retiring.1 retiring).2⟩

/-- The tag planned for a bay names a zone that does not retire. -/
theorem Part.Committed.planned_zone {b : Nat} {r : BayRec} (node : p.fm.node? b = some r) :
    plannedBy (p.solveInput edges).plan tags b ∉ (p.solveInput edges).plan.retiring
      ∧ ∃ z', (p.zoned (p.solveInput edges).plan).zt.zone? (plannedBy (p.solveInput edges).plan tags b) = some z' ∧ z'.life ≠ .retiring := by
  have live {tag : Nat} {z : Zone} (zone : p.zt.zone? tag = some z) (kept : tag ∉ (p.solveInput edges).plan.retiring) :
      ∃ z', (p.zoned (p.solveInput edges).plan).zt.zone? tag = some z' ∧ z'.life ≠ .retiring := by
    obtain ⟨z', there, isLive⟩ := c.stays table still zone kept
    exact ⟨z', there, by rw [isLive]; exact nofun⟩
  obtain ⟨d, z, kept, -, eq⟩ | ⟨k, d, parent, tag, entry, named, -, eq⟩ | eq := plannedBy_cases (p.solveInput edges).plan (tags := tags) b
  · rw [eq]
    have apart : z ∉ (p.solveInput edges).plan.retiring := fun retiring =>
      (table.retiring_apart still retiring).2 (List.mem_map.2 ⟨_, kept, rfl⟩)
    obtain ⟨room, continued⟩ := SolveInput.mem_kept.1 kept
    have held := (SolveInput.bestZone_eq_some_iff.1 ((SolveInput.continues_eq_some_iff room).1 continued).1).1
    obtain ⟨-, y, zone⟩ := (table.mem_inputZones still).1 held
    exact ⟨apart, live zone apart⟩
  · rw [eq]
    obtain ⟨-, -, born, -⟩ := c.writes
    obtain ⟨y, -, there⟩ := born k d parent tag entry named
    exact ⟨table.not_retiring still (c.fresh tag (List.mem_of_getElem? named)), _, there, nofun⟩
  · rw [eq]
    have apart : 0 ∉ (p.solveInput edges).plan.retiring := fun retiring => (table.retiring_apart still retiring).1 rfl
    have floor : p.fm.state ≠ .unconfigured := by
      intro noFloor
      unfold FloorModel.node? FloorModel.bay? at node
      rw [table.bare noFloor] at node
      simp at node
    obtain ⟨z, slot, zero, -⟩ := table.floor floor
    have zone := table.distinct.zone?_eq (Zt.mem_zones.2 (List.mem_of_getElem? slot))
    rw [zero] at zone
    exact ⟨apart, live zone apart⟩

theorem Part.Committed.zoneTable :
    ZoneTable ((p.zoned (p.solveInput edges).plan).listing (p.zoned (p.solveInput edges).plan).movingBays) := by
  have fm := p.zoned_fm (p.solveInput edges).plan
  have state : (p.zoned (p.solveInput edges).plan).fm.state = p.fm.state := by rw [fm]; rfl
  exact {
    bare := fun noFloor => by
      have none := table.bare (state ▸ noFloor)
      show (p.zoned (p.solveInput edges).plan).fm.bays = []
      rw [← List.length_eq_zero_iff, fm, FloorModel.mapNodes_size, none]
      rfl
    floor := fun floor => by
      obtain ⟨z, slot, zero, -⟩ := table.floor (state ▸ floor)
      have zone := table.distinct.zone?_eq (Zt.mem_zones.2 (List.mem_of_getElem? slot))
      have apart : z.tag ∉ (p.solveInput edges).plan.retiring := fun retiring => (table.retiring_apart still retiring).1 zero
      obtain ⟨-, -, -, -, slots, -⟩ := c.writes
      obtain ⟨z', slot', named⟩ := slots 0 z slot (by simp [freedAtCommit, apart])
      obtain ⟨y, there, isLive⟩ := c.stays table still zone apart
      have found := c.distinct.zone?_eq (Zt.mem_zones.2 (List.mem_of_getElem? slot'))
      rw [named, there] at found
      cases found
      exact ⟨z', slot', named.trans zero, isLive⟩
    distinct := c.distinct
    counted := fun {tag z'} zone => by
      show z'.members = ((p.zoned (p.solveInput edges).plan).fm.membersOf tag).length
      rw [Part.zoned_membersOf]
      obtain ⟨z, before, -, members, -⟩ | ⟨k, d, parent, -, named, members, -⟩ := c.zone table still zone
      · rw [members, table.counted before]
      · have none : p.fm.membersOf tag = [] := by
          refine List.eq_nil_iff_forall_not_mem.2 fun b member => ?_
          obtain ⟨r, node, tagged⟩ := (p.fm.mem_membersOf tag b).1 member
          obtain ⟨z, held, -⟩ := table.housed node
          rw [tagged, c.fresh tag (List.mem_of_getElem? named)] at held
          cases held
        rw [members, none]
        rfl
    housed := fun {b r'} node' => by
      obtain ⟨r, node, tag, -⟩ := c.node node'
      obtain ⟨z, held, -⟩ := table.housed node
      have named := Zt.zone?_tag _ _ _ held
      have some : z.members ≠ 0 := by
        rw [table.counted held]
        have member := (p.fm.mem_membersOf r.tag b).2 ⟨r, node, rfl⟩
        have := List.length_pos_of_mem member
        omega
      obtain ⟨-, old, -⟩ := c.writes
      have after := old z (Zt.mem_zones_of_zone? held)
      rw [named, if_neg (by simp [freedAtCommit, some])] at after
      refine ⟨_, tag ▸ after, ?_⟩
      dsimp only
      rw [table.all_live still held]
      split <;> exact nofun
    bound := fun {b r' n} node' next => by
      obtain ⟨r, node, tag, nextTag⟩ := c.node node'
      rw [nextTag] at next
      split at next
      · cases next
      · next moves =>
        cases next
        exact ⟨tag ▸ moves, (c.planned_zone table still node).2⟩
    awaited := fun {tag z'} zone born => by
      obtain ⟨z, -, -, -, life⟩ | ⟨k, d, parent, entry, named, -, -⟩ := c.zone table still zone
      · rw [born] at life
        split at life <;> cases life
      · have component := SolveInput.admitted_components (List.mem_of_getElem? entry)
        have inside := SolveInput.key_mem component
        obtain ⟨r, node⟩ := Part.roomable_of_component component inside
        have planned := SolveInput.planned_born (p.solveInput_ascending edges) entry named inside
        have fresh := c.fresh tag (List.mem_of_getElem? named)
        have moves : tag ≠ r.tag := by
          rintro rfl
          obtain ⟨z, held, -⟩ := table.housed node
          rw [fresh] at held
          cases held
        refine ⟨d.key, r.planned (p.solveInput edges).plan (p.tagsGiven (p.solveInput edges).plan) d.key, ?_, ?_⟩
        · show (p.zoned (p.solveInput edges).plan).fm.node? d.key = _
          rw [Part.zoned_node?, node]
          rfl
        · unfold BayRec.planned
          dsimp only
          rw [c.planned, planned, if_neg moves]
    leaving := fun {tag z'} zone retiring => by
      obtain ⟨z, before, stays, members, life⟩ | ⟨k, d, parent, -, -, -, born⟩ := c.zone table still zone
      · rw [retiring] at life
        have retires : tag ∈ (p.solveInput edges).plan.retiring := by
          by_contra kept
          rw [if_neg kept] at life
          cases life
        have named := Zt.zone?_tag _ _ _ before
        have some : z.members ≠ 0 := by
          intro none
          simp [freedAtCommit, named, retires, none] at stays
        refine ⟨by omega, fun b r' node' tagged => ?_⟩
        obtain ⟨r, node, tag', nextTag⟩ := c.node node'
        have moves : plannedBy (p.solveInput edges).plan tags b ≠ r.tag := by
          intro same
          have apart := (c.planned_zone table still node).1
          rw [same, ← tag', tagged] at apart
          exact apart retires
        rw [nextTag, if_neg moves]
        rfl
      · rw [born] at retiring
        cases retiring
    listed := rfl }

end

/-! ### Setup and restarts -/

theorem ZoneTable.cold (n : Nat) : ZoneTable { Part.cold with fresh := n } := by
  obtain ⟨-, -, -, -, -, zones, -⟩ := invariantsHoldAtReset
  have same : State.reset.part.Standing { Part.cold with fresh := n } := .of_blocks rfl rfl rfl rfl
  exact same.zoneTable ((zoneLaws_iff State.reset.part).1 zones).1

theorem ZoneTable.setupFloor (p : Part) (g : Grid) (bitmap : List Byte) : ZoneTable (p.setupFloor g bitmap) := by
  have slots : (p.setupFloor g bitmap).zt.slots =
      some (Zone.floorZone (p.fm.setup g bitmap).nr (p.fm.setup g bitmap).m (p.fm.setup g bitmap).roomable.head?) :: List.replicate 63 none := rfl
  have zones : (p.setupFloor g bitmap).zt.zones =
      [Zone.floorZone (p.fm.setup g bitmap).nr (p.fm.setup g bitmap).m (p.fm.setup g bitmap).roomable.head?] := by
    rw [Zt.zones, slots]
    rfl
  have fm : (p.setupFloor g bitmap).fm = p.fm.setup g bitmap := rfl
  have zone {tag : Nat} {z : Zone} (zone : (p.setupFloor g bitmap).zt.zone? tag = some z) : tag = 0
      ∧ z = Zone.floorZone (p.fm.setup g bitmap).nr (p.fm.setup g bitmap).m (p.fm.setup g bitmap).roomable.head? := by
    have mem := Zt.mem_zones_of_zone? zone
    rw [zones, List.mem_singleton] at mem
    have named := Zt.zone?_tag _ _ _ zone
    rw [mem] at named
    exact ⟨named.symm, mem⟩
  have node {b : Nat} {r : BayRec} (node : (p.setupFloor g bitmap).fm.node? b = some r) : r = .setup g.v := by
    rw [fm, FloorModel.setup_node?] at node
    split at node
    · exact (Option.some.inj node).symm
    · cases node
  exact {
    bare := nofun
    floor := fun _ => ⟨_, rfl, rfl, rfl⟩
    distinct := by
      unfold Zt.Distinct
      rw [zones]
      exact List.nodup_singleton _
    counted := fun {tag z} held => by
      obtain ⟨rfl, rfl⟩ := zone held
      show (p.fm.setup g bitmap).roomable.length = ((p.fm.setup g bitmap).membersOf 0).length
      refine congrArg List.length (ascending_ext (FloorModel.nodes_sorted _) (FloorModel.membersOf_sorted _ _) fun b => ?_)
      have roomable := (p.fm.setup g bitmap).mem_roomable b
      rw [roomable, FloorModel.mem_membersOf, Option.isSome_iff_exists]
      refine exists_congr fun r => ⟨fun held => ⟨held, ?_⟩, fun held => held.1⟩
      rw [node held]
      rfl
    housed := fun {b r} held => by
      rw [node held]
      refine ⟨Zone.floorZone (p.fm.setup g bitmap).nr (p.fm.setup g bitmap).m (p.fm.setup g bitmap).roomable.head?, ?_, ?_⟩
      · rw [Zt.zone?, zones]
        rfl
      · exact nofun
    bound := fun {b r n} held next => by
      rw [node held] at next
      cases next
    awaited := fun {tag z} held born => by
      rw [(zone held).2] at born
      cases born
    leaving := fun {tag z} held retiring => by
      rw [(zone held).2] at retiring
      cases retiring
    listed := by
      show [] = (p.setupFloor g bitmap).movingBays
      refine (List.eq_nil_iff_forall_not_mem.2 fun b member => ?_).symm
      obtain ⟨r, held, moves⟩ := (Part.movingBays_iff _ b).1 member
      rw [node held] at moves
      cases moves }

/-- R109: a warm restart frees the BORN zones, revives the RETIRING ones and forgets the bays' next tags. -/
theorem ZoneTable.restarted {p : Part} (h : ZoneTable p) : ZoneTable p.restarted := by
  have fm : p.restarted.fm = p.fm.restarted := rfl
  have reworked : p.zt.Reworked p.restarted.zt := by
    refine ⟨Zone.renewed p.fm.state p.fm.clock, fun z => z.life != .born, fun z => by rw [Zone.renewed_eq], ?_⟩
    show (p.zt.slots.map fun o => (o.filter fun z => z.life != .born).map Zone.restarted).map (Option.map _) = _
    rw [List.map_map]
    refine List.map_congr_left fun o _ => ?_
    rw [Function.comp_apply, Option.map_map]
    rfl
  have distinct := reworked.distinct h.distinct
  have zone {tag : Nat} {z' : Zone} (zone : p.restarted.zt.zone? tag = some z') :
      ∃ z, p.zt.zone? tag = some z ∧ z'.members = z.members ∧ z'.life = .live := by
    have mem := Zt.mem_zones_of_zone? zone
    have named := Zt.zone?_tag _ _ _ zone
    have isLive := (Part.restarted_zones_live mem).1
    rw [Part.restarted_zones] at mem
    obtain ⟨z, kept, rfl⟩ := List.mem_map.1 mem
    rw [Zone.renewed_eq] at named
    refine ⟨z, ?_, by rw [Zone.renewed_eq], isLive⟩
    rw [← named]
    exact h.distinct.zone?_eq (List.mem_of_mem_filter kept)
  have node {b : Nat} {r' : BayRec} (node : p.restarted.fm.node? b = some r') :
      ∃ r, p.fm.node? b = some r ∧ r'.tag = r.tag ∧ r'.nextTag = none := by
    rw [fm, FloorModel.restarted_node?, Option.map_eq_some_iff] at node
    obtain ⟨r, held, rfl⟩ := node
    exact ⟨r, held, rfl, rfl⟩
  have size : p.restarted.fm.bays.length = p.fm.bays.length := by
    rw [fm]
    unfold FloorModel.restarted
    dsimp only
    split <;> exact FloorModel.mapNodes_size ..
  have state : p.restarted.fm.state = p.fm.state := p.fm.restarted_state
  exact {
    bare := fun noFloor => List.length_eq_zero_iff.1 (size.trans (List.length_eq_zero_iff.2 (h.bare (state ▸ noFloor))))
    floor := fun floor => by
      obtain ⟨z, slot, zero, isLive⟩ := h.floor (state ▸ floor)
      have held := h.distinct.zone?_eq (Zt.mem_zones.2 (List.mem_of_getElem? slot))
      have there := Part.restarted_zone? held (by rw [isLive]; exact nofun)
      refine ⟨_, reworked.slot h.distinct slot there, ?_, ?_⟩
      · rw [Zone.renewed_eq]
        exact zero
      · rw [Zone.renewed_eq]
    distinct := distinct
    counted := fun {tag z'} held => by
      obtain ⟨z, before, members, -⟩ := zone held
      rw [members, h.counted before]
      refine congrArg List.length (FloorModel.membersOf_congr (fun b => ?_) tag).symm
      rw [fm, FloorModel.restarted_node?, Option.map_map]
      rfl
    housed := fun {b r'} held => by
      obtain ⟨r, before, tag, -⟩ := node held
      obtain ⟨z, there, alive⟩ := h.housed before
      refine ⟨_, tag ▸ Part.restarted_zone? there alive, ?_⟩
      rw [Zone.renewed_eq]
      exact nofun
    bound := fun {b r' n} held next => by
      obtain ⟨r, -, -, none⟩ := node held
      rw [none] at next
      cases next
    awaited := fun {tag z'} held born => by
      obtain ⟨z, -, -, isLive⟩ := zone held
      rw [isLive] at born
      cases born
    leaving := fun {tag z'} held retiring => by
      obtain ⟨z, -, -, isLive⟩ := zone held
      rw [isLive] at retiring
      cases retiring
    listed := by
      show [] = p.restarted.movingBays
      refine (List.eq_nil_iff_forall_not_mem.2 fun b member => ?_).symm
      obtain ⟨r', held, moves⟩ := (Part.movingBays_iff _ b).1 member
      obtain ⟨r, -, -, none⟩ := node held
      rw [none] at moves
      cases moves }

/-! ### Every step -/

theorem StepKept.and {I J : Part → Prop} (i : StepKept I) (j : StepKept J) : StepKept fun p => I p ∧ J p where
  link u h := ⟨i.link u h.1, j.link u h.2⟩
  wire bus slot h := ⟨i.wire bus slot h.1, j.wire bus slot h.2⟩
  grant h := ⟨i.grant h.1, j.grant h.2⟩
  round h := ⟨i.round h.1, j.round h.2⟩
  failed b cause h := ⟨i.failed b cause h.1, j.failed b cause h.2⟩
  polled b reply h := ⟨i.polled b reply h.1, j.polled b reply h.2⟩
  driven b sent h := ⟨i.driven b sent h.1, j.driven b sent h.2⟩
  quiet h := ⟨i.quiet h.1, j.quiet h.2⟩
  solved h := ⟨i.solved h.1, j.solved h.2⟩
  stepped h := ⟨i.stepped h.1, j.stepped h.2⟩
  overdue h := ⟨i.overdue h.1, j.overdue h.2⟩
  vacated tag h := ⟨i.vacated tag h.1, j.vacated tag h.2⟩
  faded h := ⟨i.faded h.1, j.faded h.2⟩
  shared may h := ⟨i.shared may h.1, j.shared may h.2⟩
  ticked h := ⟨i.ticked h.1, j.ticked h.2⟩
  cold n := ⟨i.cold n, j.cold n⟩
  warm h := ⟨i.warm h.1, j.warm h.2⟩
  request effect h := ⟨i.request effect h.1, j.request effect h.2⟩

/-- What the zone laws are kept together with. -/
def ZoneBackground (p : Part) : Prop := ZonesValid p ∧ NetChangeLaws p ∧ Sequenced p

theorem zoneBackground_stepKept : StepKept ZoneBackground := zonesValid_stepKept.and sequenced_stepKept

/-- While a solve runs no bay moves, and there is a floor, in SURVEY exactly for an initial one. -/
theorem ZoneBackground.solving {p : Part} {snap : Snapshot} (h : ZoneBackground p) (solving : p.rsq.seq = .solving)
    (held : p.rsq.snapshot = some snap) :
    p.zt.Valid ∧ p.cut.list = [] ∧ p.fm.state ≠ .unconfigured ∧ (snap.initial = true ↔ p.fm.state = .survey) := by
  obtain ⟨valid, net, empty, -⟩ := h
  obtain ⟨floor, survey, -⟩ := ((netChangeLaws_iff p).1 net).2.2.2 snap held solving
  exact ⟨((zonesValid_iff p).1 valid).1, empty (by rw [solving]; exact nofun), floor, survey⟩

theorem ZoneTable.commit {p : Part} {snap : Snapshot} (h : ZoneTable p) (background : ZoneBackground p) (solving : p.rsq.seq = .solving)
    (held : p.rsq.snapshot = some snap) : ZoneTable ((p.commit (p.solveInput snap.edges).plan snap.edges).listing
      (p.commit (p.solveInput snap.edges).plan snap.edges).movingBays) := by
  obtain ⟨valid, still, -⟩ := background.solving solving held
  obtain ⟨tags, committed⟩ := Part.committed valid h still snap.edges
  have table := committed.zoneTable h still
  generalize (p.solveInput snap.edges).plan = plan at table
  have fm : (p.commit plan snap.edges).fm = (p.zoned plan).fm := by
    rw [Part.commit_eq, Part.raiseAll_fm]
    rfl
  have zt : (p.commit plan snap.edges).zt = (p.zoned plan).zt := by
    rw [Part.commit_eq, Part.raiseAll_zt]
    rfl
  refine Part.Standing.zoneTable (.of_blocks ?_ ?_ ?_ ?_) table
  · exact congrArg FloorModel.state fm
  · exact congrArg FloorModel.bays fm
  · exact zt
  · show (p.commit plan snap.edges).movingBays = (p.zoned plan).movingBays
    unfold Part.movingBays
    rw [fm]

theorem ZoneTable.runs {p : Part} (h : ZoneTable p) (floor : p.fm.state ≠ .unconfigured) :
    ZoneTable (p.mapFm fun f => { f with state := .running }) where
  bare := nofun
  floor _ := h.floor floor
  distinct := h.distinct
  counted := h.counted
  housed := h.housed
  bound := h.bound
  awaited := h.awaited
  leaving := h.leaving
  listed := h.listed

/-- R13: the targets, levels and grants at the entry into RUNNING. -/
theorem Part.Standing.lit (p : Part) : p.Standing p.lightFloor.allocate.joinAll :=
  ((Steady.lightFloor p).standing.trans (.allocate _)).trans (Steady.of_parts (by simp) (by simp) (by simp) (by simp)).standing

theorem ZoneTable.enterRunning {p : Part} (h : ZoneTable p) (floor : p.fm.state ≠ .unconfigured) : ZoneTable p.enterRunning := by
  have lit := Part.Standing.lit p
  have entered : p.enterRunning = (p.lightFloor.allocate.joinAll.mapFm fun f => { f with state := .running }).raise .surveyDone := rfl
  have table := lit.zoneTable h
  have floor' : p.lightFloor.allocate.joinAll.fm.state ≠ .unconfigured := by rw [lit.state]; exact floor
  rw [entered]
  generalize p.lightFloor.allocate.joinAll = q at *
  exact (Part.Steady.raise .surveyDone _).standing.zoneTable (table.runs floor')

theorem ZoneTable.of_listing {p : Part} (list : p.cut.list = p.movingBays) (h : ZoneTable (p.listing p.movingBays)) : ZoneTable p := by
  have same : (p.listing p.movingBays).Standing p := .of_blocks rfl rfl rfl list
  exact same.zoneTable h

theorem zoneTable_tableKept : TableKept ZoneBackground ZoneTable where
  steady same h := same.standing.zoneTable h
  cut b h := h.cutBay b
  shared _ h := (Part.Standing.allocate _).zoneTable h
  committed background solving held h := h.commit background solving held
  unmoved {p snap} background solving held h none := by
    have table := h.commit background solving held
    obtain ⟨-, still, -⟩ := background.solving solving held
    exact table.of_listing (by rw [none, Part.commit_cut, still])
  entered {p q snap} background solving held _ state h := by
    obtain ⟨-, -, floor, -⟩ := background.solving solving held
    exact h.enterRunning (by rw [state]; exact floor)
  cold n := .cold n
  warm _ h := (Part.Steady.warmRestart _).standing.zoneTable h.restarted
  newFloor _ _ _ := .setupFloor ..
  supplied budget interval _ h := (Part.supplied_steady_zones budget interval _).zoneTable h

theorem zoneTable_stepKept : StepKept fun p => ZoneBackground p ∧ ZoneTable p := zoneTable_tableKept.stepKept zoneBackground_stepKept

end Sys2Proof.Machine

/-!
The supply budget and the grants within it, kept by every step (R5, R147, R150, R158, R160, R162).
-/
namespace Sys2Proof.Machine

/-! ### Sums over the bays of each zone -/

theorem sum_map_ite_mem {K : List Nat} (distinct : K.Nodup) (a c : Nat) :
    (K.map fun k => if a = k then c else 0).sum = if a ∈ K then c else 0 := by
  induction K with
  | nil => rfl
  | cons k K ih =>
    obtain ⟨apart, distinct⟩ := List.nodup_cons.1 distinct
    rw [List.map_cons, List.sum_cons, ih distinct]
    by_cases same : a = k
    · subst same
      simp [apart]
    · simp [same]

/-- A sum over a list, taken key by key. -/
theorem sum_by_key {α : Type} (key : α → Nat) (φ : α → Nat) {K : List Nat} (distinct : K.Nodup) {l : List α} (within : ∀ x ∈ l, key x ∈ K) :
    (K.map fun k => ((l.filter fun x => key x = k).map φ).sum).sum = (l.map φ).sum := by
  induction l with
  | nil => simp
  | cons x xs ih =>
    obtain ⟨head, tail⟩ := List.forall_mem_cons.1 within
    have each (k : Nat) : (((x :: xs).filter fun x => key x = k).map φ).sum
        = (if key x = k then φ x else 0) + ((xs.filter fun x => key x = k).map φ).sum := by
      by_cases own : key x = k <;> simp [own]
    simp only [each]
    rw [List.sum_map_add, ih tail, sum_map_ite_mem distinct, if_pos head, List.map_cons, List.sum_cons]

theorem lookupTag_of_mem {gs : List (Nat × Nat)} (distinct : (gs.map Prod.fst).Nodup) {tag g : Nat} (mem : (tag, g) ∈ gs) :
    lookupTag tag gs = some g := by
  induction gs with
  | nil => cases mem
  | cons x gs ih =>
    obtain ⟨apart, distinct⟩ := List.nodup_cons.1 distinct
    rcases List.mem_cons.1 mem with rfl | later
    · simp [lookupTag]
    · have differ : x.1 ≠ tag := fun same => apart (same ▸ List.mem_map_of_mem (f := Prod.fst) later)
      have rest := ih distinct later
      unfold lookupTag at rest ⊢
      rwa [List.find?_cons_of_neg (by simpa using differ)]

/-- The places of a list's elements are its places in order. -/
theorem map_idxOf {l : List Nat} (distinct : l.Nodup) : (l.map fun b => l.idxOf b) = List.range l.length := by
  refine List.ext_getElem (by simp) fun i inside _ => ?_
  rw [List.length_map] at inside
  simp [distinct.idxOf_getElem]

theorem bayGrant_bounds {grant n v qmax : Nat} (place : Nat) (pos : 0 < n) (low : n * v ≤ grant) (high : grant ≤ n * qmax) :
    v ≤ bayGrant grant n place ∧ bayGrant grant n place ≤ qmax := by
  have divided := Nat.div_add_mod grant n
  have rest := Nat.mod_lt grant pos
  have quotient : v ≤ grant / n := (Nat.le_div_iff_mul_le pos).2 (by rwa [Nat.mul_comm] at low)
  have atMost : grant / n ≤ qmax := by
    refine Nat.le_of_mul_le_mul_left (c := n) ?_ pos
    omega
  rw [bayGrant_eq]
  split
  · next first =>
    refine ⟨by omega, ?_⟩
    by_contra above
    have full : grant / n = qmax := by omega
    rw [full] at divided
    omega
  · exact ⟨quotient, atMost⟩

/-! ### The rows of an allocation -/

section
variable {p : Part} (table : ZoneTable p)
include table

theorem ZoneTable.tags_nodup : p.zt.tags.Nodup := (sortBy_perm _ _).nodup_iff.2 table.distinct

theorem ZoneTable.manned_zone {tag : Nat} (mem : tag ∈ p.manned) :
    ∃ z, p.zt.zone? tag = some z ∧ z.members = (p.fm.membersOf tag).length ∧ 0 < z.members := by
  obtain ⟨-, staffed⟩ := List.mem_filter.1 mem
  obtain ⟨z, zone, some⟩ := (Option.any_eq_true _ _).1 staffed
  exact ⟨z, zone, table.counted zone, of_decide_eq_true some⟩

/-- A column of the rows, by the zones' tags. -/
theorem ZoneTable.rows_map {g : AirRow → Nat} {φ : Nat → Nat}
    (same : ∀ tag z, p.zt.zone? tag = some z → tag ∈ p.manned → g (airRow p.fm.v p.fm.qmax (climateOf p z)) = φ tag) :
    (airRows p).map g = p.manned.map φ := by
  rw [airRows_eq, mannedZones_eq, List.map_map, List.map_filterMap]
  refine (List.filterMap_congr fun tag mem => ?_).trans (congrFun List.filterMap_eq_map' p.manned)
  obtain ⟨z, zone, -⟩ := table.manned_zone mem
  rw [zone, Option.map_some]
  exact congrArg some (same tag z zone mem)

theorem ZoneTable.rows_tags : (airRows p).map AirRow.tag = p.manned := by
  rw [table.rows_map (φ := id) fun tag z zone _ => show z.tag = tag from Zt.zone?_tag _ _ _ zone, List.map_id]

theorem ZoneTable.rows_counts : (airRows p).map AirRow.n = p.manned.map fun tag => (p.fm.membersOf tag).length :=
  table.rows_map fun tag z zone _ => show z.members = (p.fm.membersOf tag).length from table.counted zone

theorem ZoneTable.node_manned {x : Nat × BayRec} (mem : x ∈ p.fm.nodes) : x.2.tag ∈ p.manned := by
  have node := (p.fm.mem_nodes x.1 x.2).1 mem
  obtain ⟨z, zone, -⟩ := table.housed node
  refine (Part.mem_manned zone).2 ?_
  rw [table.counted zone]
  exact List.length_pos_of_mem ((p.fm.mem_membersOf _ x.1).2 ⟨x.2, node, rfl⟩)

/-- R98: every bay is a member of one zone. -/
theorem ZoneTable.rows_count_sum : ((airRows p).map AirRow.n).sum = p.fm.nodes.length := by
  have each (tag : Nat) : (p.fm.membersOf tag).length = ((p.fm.nodes.filter fun x => x.2.tag = tag).map fun _ => 1).sum := by
    rw [FloorModel.membersOf, List.length_map, List.map_const', List.sum_replicate, smul_eq_mul, Nat.mul_one]
  rw [table.rows_counts]
  simp only [each]
  rw [sum_by_key (fun x : Nat × BayRec => x.2.tag) (fun _ => 1) (Part.manned_nodup table.tags_nodup) fun x mem => table.node_manned mem,
    List.map_const', List.sum_replicate, smul_eq_mul, Nat.mul_one]

omit table in
/-- R154: the excess of a row is at most QMAX - v for each member. -/
theorem airRows_excess (p : Part) : ∀ r ∈ airRows p, r.excess ≤ r.n * (p.fm.qmax - p.fm.v) := by
  intro r mem
  rw [airRows_eq] at mem
  obtain ⟨z, -, rfl⟩ := List.mem_map.1 mem
  refine Nat.mul_le_mul_left _ ?_
  unfold extraPerBay
  split
  · exact Nat.zero_le _
  · split
    · exact Nat.zero_le _
    · exact Nat.min_le_right ..

end

/-! ### The grants of an allocation -/

section
variable {v spare : Nat} {rows : List AirRow} (demands : ∀ r ∈ rows, r.demand = r.n * v + r.excess)
include demands

/-- R155, R156: a zone is granted at least its minimum and at most its demand. -/
theorem zoneGrants_bounds {k : Nat} {row : AirRow} (held : rows[k]? = some row) :
    ∃ g, (zoneGrants spare rows)[k]? = some (row.tag, g) ∧ row.n * v ≤ g ∧ g ≤ row.n * v + row.excess := by
  have demand := demands row (List.mem_of_getElem? held)
  by_cases covered : (rows.map AirRow.excess).sum ≤ spare
  · refine ⟨row.demand, ?_, by omega, by omega⟩
    rw [zoneGrants_of_covered covered, List.getElem?_map, held]
    rfl
  · have short : spare < (rows.map AirRow.excess).sum := by omega
    refine ⟨_, by rw [zoneGrants_getElem?_of_short demands short, held]; rfl, Nat.le_add_right .., ?_⟩
    exact Nat.add_le_add_left (shareOf_le short _ _ row) _

/-- R155, R157: the grants spend at most the minima and the spare budget. -/
theorem zoneGrants_sum_le : ((zoneGrants spare rows).map Prod.snd).sum ≤ (rows.map fun r => r.n * v).sum + spare := by
  by_cases covered : (rows.map AirRow.excess).sum ≤ spare
  · rw [zoneGrants_of_covered covered, List.map_map]
    have spent : (rows.map (Prod.snd ∘ fun r => (r.tag, r.demand))).sum = (rows.map fun r => r.n * v + r.excess).sum :=
      congrArg List.sum (List.map_congr_left demands)
    rw [spent, List.sum_map_add]
    omega
  · exact (zoneGrants_sum_of_short demands (by omega)).le

end

section
variable {p : Part} {f : Nat} (table : ZoneTable p) (supply : p.afa.supply = some f) (nr : p.fm.nr = p.fm.nodes.length)
  (low : p.fm.v ≤ p.fm.qmax) (least : p.fm.nr * p.fm.v ≤ f)
include table

/-- R158: the grant of the zone of a tag. -/
def Part.grantOf (f : Nat) (p : Part) (tag : Nat) : Nat := (lookupTag tag (zoneGrants (f - p.fm.m) (airRows p))).getD 0

theorem ZoneTable.grants_nodup : ((zoneGrants (f - p.fm.m) (airRows p)).map Prod.fst).Nodup := by
  rw [zoneGrants_tags, table.rows_tags]
  exact Part.manned_nodup table.tags_nodup

include low in
theorem ZoneTable.grantOf_bounds {tag : Nat} (mem : tag ∈ p.manned) :
    lookupTag tag (zoneGrants (f - p.fm.m) (airRows p)) = some (p.grantOf f tag)
      ∧ (p.fm.membersOf tag).length * p.fm.v ≤ p.grantOf f tag ∧ p.grantOf f tag ≤ (p.fm.membersOf tag).length * p.fm.qmax := by
  obtain ⟨z, zone, members, some⟩ := table.manned_zone mem
  have row := airRows_find? zone
  rw [if_pos some] at row
  have held := List.mem_of_find?_eq_some row
  obtain ⟨k, at'⟩ := List.mem_iff_getElem?.1 held
  obtain ⟨g, granted, atLeast, atMost⟩ := zoneGrants_bounds (spare := f - p.fm.m) (airRows_demand p) at'
  have named : (airRow p.fm.v p.fm.qmax (climateOf p z)).tag = tag := show z.tag = tag from Zt.zone?_tag _ _ _ zone
  have count : (airRow p.fm.v p.fm.qmax (climateOf p z)).n = (p.fm.membersOf tag).length := members
  have excess := airRows_excess p _ held
  rw [named] at granted
  rw [count] at atLeast atMost excess
  have found := lookupTag_of_mem table.grants_nodup (List.mem_of_getElem? granted)
  have whole : (p.fm.membersOf tag).length * p.fm.v + (p.fm.membersOf tag).length * (p.fm.qmax - p.fm.v)
      = (p.fm.membersOf tag).length * p.fm.qmax := by
    rw [← Nat.mul_add, Nat.add_sub_cancel' low]
  rw [Part.grantOf, found, Option.getD_some]
  exact ⟨rfl, atLeast, by omega⟩

include supply low in
/-- R158: a bay's grant after an allocation. -/
theorem ZoneTable.allocate_nodes : p.allocate.fm.nodes = p.fm.nodes.map fun x => (x.1, { x.2 with
    q := bayGrant (p.grantOf f x.2.tag) (p.fm.membersOf x.2.tag).length ((p.fm.membersOf x.2.tag).idxOf x.1) }) := by
  have fm : p.allocate.fm = (p.granted f).fm := by rw [Part.allocate_eq supply, Part.mapAfa_fm, Part.handOverAll_fm]
  rw [fm, Part.granted_fm, FloorModel.withGrants, FloorModel.nodes_mapNodes]
  refine List.map_congr_left fun x mem => ?_
  have manned := table.node_manned mem
  obtain ⟨z, zone, members, some⟩ := table.manned_zone manned
  have row := airRows_find? zone
  rw [if_pos some] at row
  rw [row, (table.grantOf_bounds (f := f) low manned).1]
  exact congrArg (fun n => (x.1, ({ x.2 with
    q := bayGrant (p.grantOf f x.2.tag) n ((p.fm.membersOf x.2.tag).idxOf x.1) } : BayRec))) members

include supply nr low least in
/-- R158, R160: the grants of an allocation keep within the budget, and each within its bounds. -/
theorem ZoneTable.allocate_grants : (p.allocate.fm.nodes.map fun x => x.2.q).sum ≤ f
    ∧ ∀ x ∈ p.allocate.fm.nodes, p.fm.v ≤ x.2.q ∧ x.2.q ≤ p.fm.qmax := by
  rw [table.allocate_nodes supply low]
  constructor
  · have mannedNodup := Part.manned_nodup table.tags_nodup
    have zoneSum (tag : Nat) (mem : tag ∈ p.manned) : ((p.fm.nodes.filter fun x => x.2.tag = tag).map fun x =>
        bayGrant (p.grantOf f x.2.tag) (p.fm.membersOf x.2.tag).length ((p.fm.membersOf x.2.tag).idxOf x.1)).sum = p.grantOf f tag := by
      obtain ⟨z, -, members, some⟩ := table.manned_zone mem
      have own : ((p.fm.nodes.filter fun x => x.2.tag = tag).map fun x =>
          bayGrant (p.grantOf f x.2.tag) (p.fm.membersOf x.2.tag).length ((p.fm.membersOf x.2.tag).idxOf x.1))
          = ((p.fm.membersOf tag).map fun b => (p.fm.membersOf tag).idxOf b).map
            (bayGrant (p.grantOf f tag) (p.fm.membersOf tag).length) := by
        rw [List.map_map]
        conv_rhs => rw [FloorModel.membersOf, List.map_map]
        refine List.map_congr_left fun x kept => ?_
        have tagged : x.2.tag = tag := of_decide_eq_true (List.mem_filter.1 kept).2
        rw [tagged]
        rfl
      rw [own, map_idxOf (p.fm.membersOf_nodup tag), bayGrant_sum _ (by omega)]
    have all := sum_by_key (fun x : Nat × BayRec => x.2.tag) (fun x =>
      bayGrant (p.grantOf f x.2.tag) (p.fm.membersOf x.2.tag).length ((p.fm.membersOf x.2.tag).idxOf x.1)) mannedNodup
      fun x mem => table.node_manned mem
    rw [List.map_congr_left zoneSum] at all
    have grants : p.manned.map (p.grantOf f) = (zoneGrants (f - p.fm.m) (airRows p)).map Prod.snd := by
      rw [← table.rows_tags, ← zoneGrants_tags (f - p.fm.m), List.map_map]
      refine List.map_congr_left fun x mem => ?_
      show (lookupTag x.1 _).getD 0 = x.2
      rw [lookupTag_of_mem table.grants_nodup mem, Option.getD_some]
    have spent := zoneGrants_sum_le (spare := f - p.fm.m) (airRows_demand p)
    have minima : ((airRows p).map fun r => r.n * p.fm.v).sum = p.fm.nr * p.fm.v := by
      rw [List.sum_map_mul_right, table.rows_count_sum, nr]
    rw [List.map_map]
    refine (le_of_eq all.symm).trans ?_
    rw [minima] at spent
    rw [grants]
    have m : p.fm.m = p.fm.nr * p.fm.v := rfl
    omega
  · intro x mem
    obtain ⟨y, held, rfl⟩ := List.mem_map.1 mem
    have manned := table.node_manned held
    obtain ⟨z, -, members, some⟩ := table.manned_zone manned
    obtain ⟨-, atLeast, atMost⟩ := table.grantOf_bounds (f := f) low manned
    exact bayGrant_bounds _ (by omega) atLeast atMost

end

end Sys2Proof.Machine

/-!
The supply laws kept by every step (R5, R147, R150, R160, R162), and the obligation on zones.
-/
namespace Sys2Proof.Machine

/-! ### The laws -/

/-- R5, R147: the budget of a configured floor is within its bounds. -/
def Supplied (p : Part) : Prop :=
  p.fm.v + 10 ≤ p.fm.qmax ∧ p.fm.nr = p.fm.nodes.length
    ∧ ∃ f, p.afa.supply = some f ∧ p.fm.nr * p.fm.v ≤ f ∧ f ≤ p.fm.nr * p.fm.qmax

/-- R160: the grants are within the budget, and each within its bounds. -/
def Spends (p : Part) : Prop :=
  (∀ f, p.afa.supply = some f → (p.fm.nodes.map fun x => x.2.q).sum ≤ f) ∧ ∀ x ∈ p.fm.nodes, p.fm.v ≤ x.2.q ∧ x.2.q ≤ p.fm.qmax

theorem supplyLaws_iff (p : Part) : SupplyLaws p ↔ (p.fm.state = .unconfigured → p.afa.supply = none)
    ∧ (p.fm.state ≠ .unconfigured → Supplied p ∧ Spends p) ∧ (p.fm.state = .survey → ∀ x ∈ p.fm.nodes, x.2.q = p.fm.v)
    ∧ (p.fm.state ≠ .running → p.afa.timer = .stopped) := by
  unfold SupplyLaws
  refine and_congr_right fun _ => and_congr_left fun _ => forall_congr' fun _ => ?_
  constructor
  · rintro ⟨bounds, nr, f, supply, low, high, sum, each⟩
    refine ⟨⟨bounds, nr, f, supply, low, high⟩, fun f' held => ?_, each⟩
    rw [supply] at held
    cases held
    exact sum
  · rintro ⟨⟨bounds, nr, f, supply, low, high⟩, sum, each⟩
    exact ⟨bounds, nr, f, supply, low, high, sum f supply, each⟩

/-- While the floor is RUNNING the budget and the grants are all. -/
theorem supplyLaws_of_running {p : Part} (running : p.fm.state = .running) (supplied : Supplied p) (spends : Spends p) : SupplyLaws p := by
  rw [supplyLaws_iff, running]
  exact ⟨nofun, fun _ => ⟨supplied, spends⟩, nofun, fun other => absurd rfl other⟩

namespace Part.SameGrants
variable {p q : Part} (h : p.SameGrants q)
include h

theorem v : q.fm.v = p.fm.v := by rw [FloorModel.v, h.grid]; rfl
theorem qmax : q.fm.qmax = p.fm.qmax := by rw [FloorModel.qmax, h.grid]; rfl

theorem count : q.fm.nodes.length = p.fm.nodes.length := by
  have same := congrArg List.length h.grants
  rwa [FloorModel.grants, FloorModel.grants, List.length_map, List.length_map] at same

theorem sum : (q.fm.nodes.map fun x => x.2.q) = p.fm.nodes.map fun x => x.2.q := by
  have same := congrArg (List.map Prod.snd) h.grants
  rwa [FloorModel.grants, FloorModel.grants, List.map_map, List.map_map] at same

theorem bay {x : Nat × BayRec} (mem : x ∈ q.fm.nodes) : ∃ y ∈ p.fm.nodes, y.2.q = x.2.q := by
  have there : x.2.q ∈ q.fm.nodes.map fun x => x.2.q := List.mem_map_of_mem (f := fun x : Nat × BayRec => x.2.q) mem
  rw [h.sum] at there
  exact List.mem_map.1 there

theorem supplied (s : Supplied p) : Supplied q := by
  obtain ⟨bounds, nr, f, supply, low, high⟩ := s
  refine ⟨by rw [h.v, h.qmax]; exact bounds, by rw [h.nr, h.count]; exact nr, f, h.supply.trans supply, ?_, ?_⟩
  · rw [h.nr, h.v]
    exact low
  · rw [h.nr, h.qmax]
    exact high

theorem spends (s : Spends p) : Spends q := by
  obtain ⟨sum, each⟩ := s
  refine ⟨fun f supply => ?_, fun x mem => ?_⟩
  · rw [h.sum]
    exact sum f (h.supply.symm.trans supply)
  · obtain ⟨y, held, same⟩ := h.bay mem
    rw [h.v, h.qmax, ← same]
    exact each y held

theorem supplyLaws (laws : SupplyLaws p) : SupplyLaws q := by
  rw [supplyLaws_iff] at laws ⊢
  obtain ⟨bare, floor, survey, timer⟩ := laws
  rw [h.state, h.supply, h.timer]
  refine ⟨bare, fun configured => ?_, fun early x mem => ?_, timer⟩
  · obtain ⟨supplied, spends⟩ := floor configured
    exact ⟨h.supplied supplied, h.spends spends⟩
  · obtain ⟨y, held, same⟩ := h.bay mem
    rw [h.v, ← same]
    exact survey early y held

end Part.SameGrants

/-- R162: the allocation timer written. -/
theorem SupplyLaws.retimed {p : Part} (h : SupplyLaws p) (t : Timer) (early : p.fm.state ≠ .running → t = .stopped) :
    SupplyLaws (p.mapAfa fun a => { a with timer := t }) := by
  rw [supplyLaws_iff] at h ⊢
  obtain ⟨bare, floor, survey, -⟩ := h
  exact ⟨bare, floor, survey, early⟩

/-! ### The operations -/

/-- An allocation spends within a budget that is within its bounds. -/
theorem Supplied.allocate {p : Part} (h : Supplied p) (table : ZoneTable p) : Supplied p.allocate ∧ Spends p.allocate := by
  obtain ⟨bounds, nr, f, supply, low, high⟩ := h
  obtain ⟨sum, each⟩ := table.allocate_grants supply nr (by omega) low
  have fm := (Part.Keeps.allocate p).fm
  have v : p.allocate.fm.v = p.fm.v := by rw [fm]; rfl
  have qmax : p.allocate.fm.qmax = p.fm.qmax := by rw [fm]; rfl
  have nr' : p.allocate.fm.nr = p.fm.nr := by rw [fm]
  have supply' : p.allocate.afa.supply = some f := by rw [Part.allocate_afa supply, supply]
  have count : p.allocate.fm.nodes.length = p.fm.nodes.length := by
    rw [table.allocate_nodes supply (by omega), List.length_map]
  refine ⟨⟨by rw [v, qmax]; exact bounds, by rw [nr', count]; exact nr, f, supply', by rw [nr', v]; exact low,
    by rw [nr', qmax]; exact high⟩, fun f' held => ?_, fun x mem => ?_⟩
  · rw [supply'] at held
    cases held
    exact sum
  · rw [v, qmax]
    exact each x mem

theorem SupplyLaws.allocate {p : Part} (h : SupplyLaws p) (table : ZoneTable p) (running : p.fm.state = .running) :
    SupplyLaws p.allocate := by
  obtain ⟨supplied, spends⟩ := (((supplyLaws_iff p).1 h).2.1 (by rw [running]; exact nofun)).1.allocate table
  exact supplyLaws_of_running ((Part.Keeps.allocate p).state.trans running) supplied spends

/-- R162: the allocation timer runs only while the floor is RUNNING. -/
theorem SupplyLaws.running_of_timer {p : Part} (h : SupplyLaws p) (may : p.afa.timer.mayExpire p.fm.clock = true) :
    p.fm.state = .running := by
  by_contra early
  rw [((supplyLaws_iff p).1 h).2.2.2 early] at may
  cases may

theorem Part.retire_afa (tag : Nat) (p : Part) : (p.retire tag).afa = p.afa := by
  unfold retire
  split
  · split
    · rw [freeZone, raiseAll_afa]
      rfl
    · rfl
  · rfl

theorem Part.SameGrants.listing {p q : Part} (h : p.SameGrants q) (listed : List Nat) : p.SameGrants (q.listing listed) :=
  ⟨h.state, h.grid, h.nr, h.grants, h.supply, h.timer⟩

/-- A commit leaves the grants and the budget. -/
theorem Part.commit_grants (plan : Plan) (edges : List EdgeState) (p : Part) : p.SameGrants (p.commit plan edges) := by
  have fm : (p.commit plan edges).fm = p.fm.mapNodes (BayRec.planned plan (p.tagsGiven plan)) := by
    rw [commit_eq, raiseAll_fm, ← zoned_fm]
    rfl
  have afa : (p.commit plan edges).afa = p.afa := by
    rw [commit_eq, raiseAll_afa]
    exact foldl_keeps retire (·.afa) (fun p t => p.retire_afa t) _ _
  generalize p.commit plan edges = q at *
  refine ⟨?_, ?_, ?_, ?_, ?_, ?_⟩
  · rw [fm]
    rfl
  · rw [fm]
    rfl
  · rw [fm]
    rfl
  · rw [fm]
    exact (FloorModel.grants_mapNodes fun _ _ => rfl)
  · exact congrArg Afa.supply afa
  · exact congrArg Afa.timer afa

theorem SupplyLaws.enterRunning {p : Part} (h : SupplyLaws p) (table : ZoneTable p) (floor : p.fm.state ≠ .unconfigured) :
    SupplyLaws p.enterRunning := by
  have lit := Part.Steady.lightFloor p
  have laws := lit.sameGrants.supplyLaws h
  have floor' : p.lightFloor.fm.state ≠ .unconfigured := by rw [lit.standing.state]; exact floor
  obtain ⟨supplied, spends⟩ := (((supplyLaws_iff _).1 laws).2.1 floor').1.allocate (lit.standing.zoneTable table)
  have joined : p.lightFloor.allocate.SameGrants p.lightFloor.allocate.joinAll :=
    (Part.Steady.of_parts (by simp) (by simp) (by simp) (by simp)).sameGrants
  exact supplyLaws_of_running rfl (joined.supplied supplied) (joined.spends spends)

theorem SupplyLaws.setSupply {p : Part} (h : SupplyLaws p) (table : ZoneTable p) (budget interval : Nat)
    (floor : p.fm.state ≠ .unconfigured) : SupplyLaws (p.setSupply budget interval) := by
  obtain ⟨bare, all, survey, timer⟩ := (supplyLaws_iff p).1 h
  obtain ⟨⟨bounds, nr, f, supply, low, high⟩, -, each⟩ := all floor
  have range := clamp_range (show p.fm.m ≤ p.fm.fmax from Nat.mul_le_mul_left _ (by omega)) budget
  have written : Supplied (p.supplied budget interval) := ⟨bounds, nr, _, rfl, range⟩
  cases state : p.fm.state with
  | unconfigured => exact absurd state floor
  | running =>
    rw [Part.setSupply_of_running _ _ state]
    have same : p.Standing (p.supplied budget interval) := .of_blocks rfl rfl rfl rfl
    obtain ⟨supplied, spends⟩ := written.allocate (same.zoneTable table)
    exact supplyLaws_of_running ((Part.Keeps.allocate _).state.trans state) supplied spends
  | survey =>
    rw [Part.setSupply_of_survey _ _ state, supplyLaws_iff]
    refine ⟨fun noFloor => absurd noFloor floor, fun _ => ⟨written, fun f' held => ?_, each⟩, survey, timer⟩
    cases held
    have least : (p.fm.nodes.map fun x => x.2.q) = List.replicate p.fm.nodes.length p.fm.v := by
      rw [← List.map_const']
      exact List.map_congr_left (survey state)
    show (p.fm.nodes.map fun x => x.2.q).sum ≤ p.budget budget
    rw [least, List.sum_replicate, smul_eq_mul, ← nr]
    exact range.1

theorem SupplyLaws.setupFloor {g : Grid} {bitmap : List Byte} (valid : setupFieldFault g bitmap = none) (p : Part) :
    SupplyLaws (p.setupFloor g bitmap) := by
  obtain ⟨-, -, -, -, ⟨bounds, -⟩, -⟩ := (setupFieldFault_eq_none_iff g bitmap).1 valid
  have each : ∀ x ∈ (p.setupFloor g bitmap).fm.nodes, x.2.q = g.v := by
    intro x mem
    have node := (FloorModel.mem_nodes _ x.1 x.2).1 mem
    rw [show (p.setupFloor g bitmap).fm = p.fm.setup g bitmap from rfl, FloorModel.setup_node?] at node
    split at node
    · rw [← Option.some.inj node]
      rfl
    · cases node
  have nr : (p.setupFloor g bitmap).fm.nr = (p.setupFloor g bitmap).fm.nodes.length := by
    show (p.fm.setup g bitmap).roomable.length = _
    exact List.length_map ..
  have v : (p.setupFloor g bitmap).fm.v = g.v := rfl
  have qmax : (p.setupFloor g bitmap).fm.qmax = g.qmax := rfl
  have supply : (p.setupFloor g bitmap).afa.supply = some ((p.setupFloor g bitmap).fm.nr * g.v) := rfl
  have state : (p.setupFloor g bitmap).fm.state = .survey := rfl
  have timer : (p.setupFloor g bitmap).afa.timer = .stopped := rfl
  generalize p.setupFloor g bitmap = q at *
  rw [supplyLaws_iff, state]
  refine ⟨nofun, fun _ => ⟨⟨?_, nr, _, supply, ?_, ?_⟩, fun f held => ?_, fun x mem => ?_⟩, fun _ x mem => ?_, fun _ => timer⟩
  · rw [v, qmax]
    exact bounds
  · rw [v]
  · rw [qmax]
    exact Nat.mul_le_mul_left _ (by omega)
  · rw [supply] at held
    cases held
    have least : (q.fm.nodes.map fun x => x.2.q) = List.replicate q.fm.nodes.length g.v := by
      rw [← List.map_const']
      exact List.map_congr_left each
    rw [least, List.sum_replicate, smul_eq_mul, nr]
  · rw [v, qmax, each x mem]
    omega
  · rw [v]
    exact each x mem

theorem SupplyLaws.restarted {p : Part} (h : SupplyLaws p) : SupplyLaws p.restarted := by
  have fm : p.restarted.fm = p.fm.restarted := rfl
  have nodes : p.fm.restarted.nodes = (p.fm.mapNodes fun _ r => r.restarted).nodes := by
    unfold FloorModel.restarted
    dsimp only
    split <;> rfl
  have same : p.SameGrants { p.restarted with afa := p.afa } := by
    refine ⟨p.fm.restarted_state, ?_, ?_, ?_, rfl, rfl⟩
    · show p.fm.restarted.grid = _
      rw [FloorModel.restarted_shape]
    · show p.fm.restarted.nr = _
      rw [FloorModel.restarted_shape]
    · show p.fm.restarted.grants = _
      rw [FloorModel.grants, nodes]
      exact FloorModel.grants_mapNodes fun _ _ => rfl
  have laws := same.supplyLaws h
  have timer := ((supplyLaws_iff p).1 h).2.2.2
  have afa : ∃ t, p.restarted.afa = { p.afa with timer := t } ∧ (p.fm.state ≠ .running → t = .stopped) := by
    show ∃ t, p.afa.restarted p.fm.state p.fm.clock = _ ∧ _
    unfold Afa.restarted
    cases state : p.fm.state with
    | running => exact ⟨_, rfl, fun early => absurd rfl early⟩
    | survey => exact ⟨p.afa.timer, rfl, fun _ => timer (by rw [state]; exact nofun)⟩
    | unconfigured => exact ⟨p.afa.timer, rfl, fun _ => timer (by rw [state]; exact nofun)⟩
  obtain ⟨t, afa, early⟩ := afa
  have whole : p.restarted = ({ p.restarted with afa := p.afa } : Part).mapAfa fun a => { a with timer := t } := by
    rw [Part.mapAfa]
    dsimp only
    rw [← afa]
  rw [whole]
  refine laws.retimed t fun notRunning => early ?_
  rwa [← p.fm.restarted_state]

theorem SupplyLaws.cold (n : Nat) : SupplyLaws { Part.cold with fresh := n } := by
  obtain ⟨-, -, -, -, -, -, laws, -⟩ := invariantsHoldAtReset
  exact laws

/-! ### Every step -/

theorem supplyLaws_tableKept : TableKept ZoneBackground fun p => ZoneTable p ∧ SupplyLaws p where
  steady same := fun ⟨table, h⟩ => ⟨zoneTable_tableKept.steady same table, same.sameGrants.supplyLaws h⟩
  cut {p} b := fun ⟨table, h⟩ => ⟨zoneTable_tableKept.cut b table, (p.cutBay_grants b).1.supplyLaws h⟩
  shared due := fun ⟨table, h⟩ => ⟨zoneTable_tableKept.shared due table,
    h.allocate table (due.elim id h.running_of_timer)⟩
  committed background solving held := fun ⟨table, h⟩ => ⟨zoneTable_tableKept.committed background solving held table,
    ((Part.commit_grants ..).listing _).supplyLaws h⟩
  unmoved background solving held := fun ⟨table, h⟩ none =>
    ⟨zoneTable_tableKept.unmoved background solving held table none, (Part.commit_grants ..).supplyLaws h⟩
  entered {p q snap} background solving held initial state := fun ⟨table, h⟩ => by
    obtain ⟨-, -, floor, -⟩ := background.solving solving held
    exact ⟨zoneTable_tableKept.entered background solving held initial state table, h.enterRunning table (by rw [state]; exact floor)⟩
  cold n := ⟨.cold n, .cold n⟩
  warm background := fun ⟨table, h⟩ => ⟨zoneTable_tableKept.warm background table,
    (Part.Steady.warmRestart _).sameGrants.supplyLaws h.restarted⟩
  newFloor valid _ _ := ⟨.setupFloor .., .setupFloor valid _⟩
  supplied budget interval floor := fun ⟨table, h⟩ => ⟨zoneTable_tableKept.supplied budget interval floor table,
    h.setSupply table budget interval floor⟩

theorem supplyLaws_stepKept : StepKept fun p => ZoneBackground p ∧ ZoneTable p ∧ SupplyLaws p :=
  supplyLaws_tableKept.stepKept zoneBackground_stepKept

/-- Settles O59: each condition is kept by every operation that writes what it reads: the ranges alone; the zone laws with the ranges, the
sequencer and the net change laws; the supply laws with these. -/
theorem stepKeepsZonesValid : Obligations.StepKeepsZonesValid := by
  unfold Obligations.StepKeepsZonesValid
  refine ⟨fun s t h runs => ?ranges, fun s t valid net zones runs => ?zones, fun s t valid net zones supply runs => ?supply⟩
  case ranges => exact step_keeps zonesValid_stepKept.effect s t h runs
  case zones =>
    obtain ⟨table, sequenced⟩ := (zoneLaws_iff s.part).1 zones
    obtain ⟨⟨-, -, sequenced'⟩, table'⟩ := step_keeps zoneTable_stepKept.effect s t ⟨⟨valid, net, sequenced⟩, table⟩ runs
    exact (zoneLaws_iff t.part).2 ⟨table', sequenced'⟩
  case supply =>
    obtain ⟨table, sequenced⟩ := (zoneLaws_iff s.part).1 zones
    obtain ⟨-, -, supply'⟩ := step_keeps supplyLaws_stepKept.effect s t ⟨⟨valid, net, sequenced⟩, table, supply⟩ runs
    exact supply'

end Sys2Proof.Machine

/-!
What a hand-off and the entering of RUNNING leave (R13, R81, R117, R144): the monitor and the result, the zones' folded bays, the lit floor.
-/
namespace Sys2Proof.Machine

/-! ### What the cutovers of a hand-off leave of the zones -/

/-- The tag counter is the same, and every zone is one of before, with its folded bays. -/
structure Zt.SameFolds (t t' : Zt) : Prop where
  nextTag : t'.nextTag = t.nextTag
  folds : ∀ tag z', t'.zone? tag = some z' → ∃ z, t.zone? tag = some z ∧ z'.foldedBays = z.foldedBays

namespace Zt.SameFolds
variable {t t' t'' : Zt}

theorem refl (t : Zt) : t.SameFolds t := ⟨rfl, fun _ z' zone => ⟨z', zone, rfl⟩⟩

theorem trans (first : t.SameFolds t') (second : t'.SameFolds t'') : t.SameFolds t'' := by
  refine ⟨second.nextTag.trans first.nextTag, fun tag z'' zone => ?_⟩
  obtain ⟨z', zone', folds'⟩ := second.folds tag z'' zone
  obtain ⟨z, held, folds⟩ := first.folds tag z' zone'
  exact ⟨z, held, folds'.trans folds⟩

theorem mapZones {g : Zone → Zone} (tag : ∀ z, (g z).tag = z.tag) (folds : ∀ z, (g z).foldedBays = z.foldedBays) (t : Zt) :
    t.SameFolds (t.mapZones g) := by
  refine ⟨rfl, fun named z' zone => ?_⟩
  rw [zone?_mapZones g tag, Option.map_eq_some_iff] at zone
  obtain ⟨z, held, rfl⟩ := zone
  exact ⟨z, held, folds z⟩

theorem modifyZone {g : Zone → Zone} (named : Nat) (tag : ∀ z, (g z).tag = z.tag) (folds : ∀ z, (g z).foldedBays = z.foldedBays) (t : Zt) :
    t.SameFolds (t.modifyZone named g) :=
  mapZones (fun z => by split <;> simp [tag]) (fun z => by split <;> simp [folds]) t

end Zt.SameFolds

theorem Part.freeZone_folds (tag : Nat) (p : Part) : p.zt.SameFolds (p.freeZone tag).zt := by
  refine ⟨(p.freeZone_table tag).1, fun other z' zone => ?_⟩
  rw [freeZone_zone?] at zone
  split at zone
  · cases zone
  · exact ⟨z', zone, rfl⟩

theorem Zone.joined_folds (now : Clock) (z : Zone) : (z.joined now).foldedBays = z.foldedBays := by
  unfold joined
  dsimp only
  split <;> rfl

theorem Part.zoneCounts_folds (old new : Nat) (p : Part) : p.zt.SameFolds (p.zoneCounts old new).zt := by
  have counted : p.zt.SameFolds (p.recounted old new).zt :=
    (((Zt.SameFolds.modifyZone (g := Zone.left) old (fun _ => rfl) (fun _ => rfl) p.zt).trans
      (.modifyZone new (Zone.joined_tag p.fm.clock) (Zone.joined_folds p.fm.clock) _)).trans
      (.modifyZone (g := fun z => { z with anchor := (p.fm.membersOf old).head? }) old (fun _ => rfl) (fun _ => rfl) _)).trans
      (.modifyZone (g := fun z => { z with anchor := (p.fm.membersOf new).head? }) new (fun _ => rfl) (fun _ => rfl) _)
  rw [zoneCounts_eq]
  split
  · split
    · exact counted.trans (freeZone_folds old _)
    · exact counted
  · exact counted

theorem Part.cutBay_folds (b : Nat) (p : Part) : p.zt.SameFolds (p.cutBay b).zt := by
  by_cases moving : ∃ r n, p.fm.node? b = some r ∧ r.nextTag = some n
  · obtain ⟨r, n, node, next⟩ := moving
    rw [cutBay_of_moving node next, countMove, mapCut_zt, retargetBay_zt]
    exact zoneCounts_folds r.tag n ((p.unlist b).modifyNode b (BayRec.arrived n))
  · rw [cutBay_of_still fun r n node next => moving ⟨r, n, node, next⟩]
    exact .refl _

theorem Part.cutBays_folds (bs : List Nat) (p : Part) : p.zt.SameFolds (p.cutBays bs).zt := by
  induction bs generalizing p with
  | nil => exact .refl _
  | cons b bs ih => exact (p.cutBay_folds b).trans (ih (p.cutBay b))

/-- What the lighting reads of a zone, and the rest that an allocation does not write. -/
def Zone.lighting (z : Zone) : Zone := { z with tz := none, heatCall := false, demand := 0, grant := 0 }

/-- R150: an allocation writes the zones' climate alone. -/
theorem Part.allocate_lighting (p : Part) (tag : Nat) :
    (p.allocate.zt.zone? tag).map Zone.lighting = (p.zt.zone? tag).map Zone.lighting := by
  cases supply : p.afa.supply with
  | none => rw [allocate, supply]
  | some f =>
    have zt : p.allocate.zt = (p.granted f).zt := by rw [allocate_eq supply, mapAfa_zt, handOverAll_zt]
    rw [zt]
    cases zone : p.zt.zone? tag with
    | none => rw [granted_zone?_none f p zone]
    | some z =>
      rw [granted_zone? f p zone]
      split <;> rfl

theorem Part.allocate_nextTag (p : Part) : p.allocate.zt.nextTag = p.zt.nextTag := by
  cases supply : p.afa.supply with
  | none => rw [allocate, supply]
  | some f => rw [allocate_eq supply, mapAfa_zt, handOverAll_zt, (granted_table f p).1]

/-- A zone after an allocation, as the lighting reads it. -/
theorem Part.allocate_zone {p : Part} {tag : Nat} {z' : Zone} (zone : p.allocate.zt.zone? tag = some z') :
    ∃ z, p.zt.zone? tag = some z ∧ z'.lighting = z.lighting := by
  have same := p.allocate_lighting tag
  rw [zone, Option.map_some] at same
  obtain ⟨z, held, eq⟩ := Option.map_eq_some_iff.1 same.symm
  exact ⟨z, held, eq.symm⟩

theorem Part.allocate_folds (p : Part) : p.zt.SameFolds p.allocate.zt := by
  refine ⟨p.allocate_nextTag, fun tag z' zone => ?_⟩
  obtain ⟨z, held, same⟩ := allocate_zone zone
  exact ⟨z, held, show z'.lighting.foldedBays = z.lighting.foldedBays by rw [same]⟩

/-! ### What the rest of a hand-off leaves -/

/-- R52, R83: what an accepted completion has written of the monitor and the result stands. -/
structure Part.KeepsOutcome (p q : Part) : Prop where
  pmon : ∃ changed, q.pmon = { p.pmon with changed := changed }
  result : q.rsq.result = p.rsq.result
  folds : p.zt.SameFolds q.zt

namespace Part.KeepsOutcome
variable {p q r : Part}

theorem of_blocks (pmon : q.pmon = p.pmon) (result : q.rsq.result = p.rsq.result) (zt : q.zt = p.zt) : p.KeepsOutcome q :=
  ⟨⟨p.pmon.changed, pmon⟩, result, by rw [zt]; exact .refl _⟩

theorem refl (p : Part) : p.KeepsOutcome p := of_blocks rfl rfl rfl

theorem trans (pq : p.KeepsOutcome q) (qr : q.KeepsOutcome r) : p.KeepsOutcome r := by
  obtain ⟨⟨c, pmon⟩, result, folds⟩ := pq
  obtain ⟨⟨c', pmon'⟩, result', folds'⟩ := qr
  exact ⟨⟨c', by rw [pmon', pmon]⟩, result'.trans result, folds.trans folds'⟩

theorem cutBays (bs : List Nat) (p : Part) : p.KeepsOutcome (p.cutBays bs) :=
  ⟨⟨p.pmon.changed, Part.cutBays_pmon ..⟩, congrArg Rsq.result (Part.cutBays_rsq ..), p.cutBays_folds bs⟩

theorem returnToIdle (p : Part) : p.KeepsOutcome p.returnToIdle := by
  refine ⟨p.returnToIdle_pmon, ?_, by rw [Part.returnToIdle_zt]; exact .refl _⟩
  unfold Part.returnToIdle Part.decideAtIdle
  split <;> rfl

theorem allocateIfRunning (p : Part) : p.KeepsOutcome p.allocateIfRunning := by
  unfold Part.allocateIfRunning
  split
  · exact ⟨⟨p.pmon.changed, p.allocate_pmon⟩, congrArg Rsq.result p.allocate_rsq, p.allocate_folds⟩
  · exact refl p
  · exact refl p

theorem completeCutover (cause : EndCause) (p : Part) : p.KeepsOutcome (p.completeCutover cause) := by
  obtain ⟨rs, ended, -⟩ := p.cutoverEnded_eq cause
  have first : p.KeepsOutcome (p.cutoverEnded cause) := by
    rw [ended]
    exact of_blocks rfl rfl rfl
  have unlisted (q : Part) : q.KeepsOutcome (q.mapCut fun c => { c with run := none }) := of_blocks rfl rfl rfl
  rw [Part.completeCutover_eq]
  exact ((first.trans (allocateIfRunning _)).trans (unlisted _)).trans (returnToIdle _)

theorem completeIfEmpty (cause : EndCause) (p : Part) : p.KeepsOutcome (p.completeIfEmpty cause) := by
  unfold Part.completeIfEmpty
  split
  · exact completeCutover cause p
  · exact refl p

theorem startCutover (pacing : Pacing) (listed : List Nat) (p : Part) : p.KeepsOutcome (p.startCutover pacing listed) := by
  have within (q : Part) (bs : List Nat) (same : p.KeepsOutcome q) : p.KeepsOutcome ((q.cutBays bs).completeIfEmpty .paced) :=
    (same.trans (cutBays bs q)).trans (completeIfEmpty .paced _)
  cases pacing with
  | block => exact within (p.listing listed) listed (of_blocks rfl rfl rfl)
  | step => exact of_blocks rfl rfl rfl
  | vacant =>
    exact within (((p.listing listed).mapRsq fun r => { r with seq := .cutting }).mapCut fun c => { c with deadline := .running c.limit })
      (p.listing listed).silentListed (of_blocks rfl rfl rfl)

theorem handOff (pacing : Pacing) (p : Part) : p.KeepsOutcome (p.handOff pacing) := by
  unfold Part.handOff
  split
  · exact returnToIdle p
  · exact startCutover pacing p.movingBays p

end Part.KeepsOutcome

/-! ### The lit floor (R13, R144) -/

/-- R135: the target of a bay by the zone its tag names. -/
def Zt.targetFor (t : Zt) (r : BayRec) : Option Nat :=
  match t.zone? r.tag with
  | some z => some z.target
  | none => r.target

/-- R144, step 3: the timer of a LIVE zone starts. -/
def Zone.vacancyStarted (now : Clock) (z : Zone) : Zone :=
  if z.life = .live then { z with vacancy := .running now z.settings.vacancyDelay } else z

theorem Zone.vacancyStarted_tag (now : Clock) (z : Zone) : (z.vacancyStarted now).tag = z.tag := by
  unfold vacancyStarted
  split <;> rfl

theorem Zone.vacancyStarted_folds (now : Clock) (z : Zone) : (z.vacancyStarted now).foldedBays = z.foldedBays := by
  unfold vacancyStarted
  split <;> rfl

theorem Part.lightFloor_zt (p : Part) : p.lightFloor.zt = p.zt.mapZones (Zone.vacancyStarted p.fm.clock) := by
  unfold lightFloor
  dsimp only
  rw [mapZt_zt, handOverAll_zt, handOverAll_fm]
  rfl

theorem Part.lightFloor_node? (p : Part) (b : Nat) : p.lightFloor.fm.node? b =
    (p.fm.node? b).map fun r => { r with target := p.zt.targetFor r, level := p.zt.targetFor r } := by
  unfold lightFloor
  dsimp only
  rw [mapZt_fm, handOverAll_fm, mapFm_fm, FloorModel.node?_mapNodes, retargetAll, mapFm_fm, FloorModel.node?_mapNodes, Option.map_map]
  refine congrArg (fun g => Option.map g _) (funext fun r => ?_)
  rw [Function.comp_apply]
  unfold Zt.targetFor
  cases p.zt.zone? r.tag <;> rfl

theorem Part.lightFloor_afa (p : Part) : p.lightFloor.afa = p.afa := by simp [lightFloor]
theorem Part.lightFloor_cut (p : Part) : p.lightFloor.cut = p.cut := by simp [lightFloor]

theorem Part.mem_joinAll {p : Part} {b : Nat} (node : (p.fm.node? b).isSome = true) : b ∈ p.joinAll.cbm.drivePending := by
  have joined (bs : List Nat) (q : Part) (mem : b ∈ bs ∨ b ∈ q.cbm.drivePending) :
      b ∈ (bs.foldl (fun p b => p.joinPending b) q).cbm.drivePending := by
    induction bs generalizing q with
    | nil => exact mem.resolve_left List.not_mem_nil
    | cons c bs ih =>
      refine ih (q.joinPending c) ?_
      rcases mem with listed | held
      · rcases List.mem_cons.1 listed with rfl | later
        · exact .inr ((mem_insertSet ..).2 (.inl rfl))
        · exact .inl later
      · exact .inr ((mem_insertSet ..).2 (.inr held))
  exact joined _ p (.inl ((p.fm.mem_roomable b).2 node))

/-- R13, steps 2 to 4. -/
def Part.lit (p : Part) : Part := p.lightFloor.allocate.joinAll

theorem Part.enterRunning_eq (p : Part) : p.enterRunning = (p.lit.mapFm fun f => { f with state := .running }).raise .surveyDone := rfl

section
variable (p : Part)

theorem Part.Keeps.lit : p.Keeps p.lit := ((lightFloor p).trans (allocate _)).trans (joinAll _)

theorem Part.lit_node? {b : Nat} {r : BayRec} (node : p.fm.node? b = some r) :
    ∃ q, p.lit.fm.node? b = some { r with target := p.zt.targetFor r, level := p.zt.targetFor r, q := q } := by
  have lit : p.lightFloor.fm.node? b = some { r with target := p.zt.targetFor r, level := p.zt.targetFor r } := by
    rw [lightFloor_node?, node, Option.map_some]
  rw [Part.lit, joinAll_fm]
  cases supply : p.lightFloor.afa.supply with
  | none =>
    refine ⟨r.q, ?_⟩
    rw [allocate, supply]
    exact lit
  | some f => exact allocate_node? supply lit

/-- R129: every bay of the lit floor shows its target and waits for its drive. -/
theorem Part.lit_bay {b : Nat} {r' : BayRec} (node : p.lit.fm.node? b = some r') :
    (∃ r, p.fm.node? b = some r ∧ r'.tag = r.tag ∧ r'.target = p.zt.targetFor r) ∧ r'.level = r'.target ∧ b ∈ p.lit.cbm.drivePending := by
  have roomable := (Keeps.lit p).roomable b
  rw [node, Option.isSome_some] at roomable
  obtain ⟨r, held⟩ := Option.isSome_iff_exists.1 roomable.symm
  obtain ⟨q, now⟩ := p.lit_node? held
  rw [node] at now
  cases now
  refine ⟨⟨r, held, rfl, rfl⟩, rfl, mem_joinAll ?_⟩
  rw [Part.lit, joinAll_fm] at node
  rw [node]
  rfl

/-- R144: the zones of the lit floor. -/
theorem Part.lit_zone (tag : Nat) : (p.lit.zt.zone? tag).map Zone.lighting =
    (p.zt.zone? tag).map fun z => (z.vacancyStarted p.fm.clock).lighting := by
  rw [Part.lit, joinAll_zt, allocate_lighting, lightFloor_zt, Zt.zone?_mapZones _ (Zone.vacancyStarted_tag p.fm.clock), Option.map_map]
  rfl

theorem Part.lit_afa {f : Nat} (supply : p.afa.supply = some f) : p.lit.afa = { p.afa with timer := .running p.fm.clock p.afa.ai } := by
  have supply' : p.lightFloor.afa.supply = some f := by rw [lightFloor_afa]; exact supply
  rw [Part.lit, joinAll_afa, allocate_afa supply', lightFloor_afa, (Keeps.lightFloor p).clock]

theorem Part.lit_cut : p.lit.cut = p.cut := by rw [Part.lit, joinAll_cut, allocate_cut, lightFloor_cut]

theorem Part.KeepsOutcome.enterRunning : p.KeepsOutcome p.enterRunning := by
  obtain ⟨pmon, rsq⟩ := p.enterRunning_monitor
  have lit : p.zt.SameFolds p.lightFloor.zt := by
    rw [lightFloor_zt]
    exact .mapZones (Zone.vacancyStarted_tag p.fm.clock) (Zone.vacancyStarted_folds p.fm.clock) _
  refine ⟨⟨p.pmon.changed, pmon⟩, congrArg Rsq.result rsq, ?_⟩
  have zt : p.enterRunning.zt = p.lightFloor.allocate.zt := by
    rw [enterRunning_eq, raise_zt, mapFm_zt, Part.lit, joinAll_zt]
  rw [zt]
  exact lit.trans p.lightFloor.allocate_folds

end

/-- R13, step 5: SURVEY_DONE comes last, or the queue was full. -/
theorem Slu.raise_choose_last {u : Slu} {r : Report} (c : Clock) (busy : u.tx ≠ .idle) (on : Enabled u r.code) :
    (u.raise r c).choose.queue.getLast? = some ⟨r, c⟩ ∨ (16 ≤ (u.raise r c).choose.queue.length ∧ (u.raise r c).choose.lost = true) := by
  have busy' : (u.raise r c).tx ≠ .idle := by rwa [raise_eq]
  rw [choose_busy _ busy']
  by_cases full : 16 ≤ u.queue.length
  · refine .inr ?_
    have enables : u.enables r = true := on
    rw [raise, if_pos enables, if_pos full]
    exact ⟨full, rfl⟩
  · refine .inl ?_
    rw [raise_queue u r c on (by omega)]
    exact List.getLast?_concat ..

end Sys2Proof.Machine

/-!
What a commit has written when its hand-off begins (R79, R82, R83), and the hand-off by pacing (R81, R117, R126).
-/
namespace Sys2Proof.Machine

/-! ### The part after a commit -/

/-- R83: the result of a commit that gives these tags. -/
def Part.resultBy (plan : Plan) (tags : List Nat) (p : Part) : SolveResult :=
  ⟨p.fm.clock, plan.found, plan.floor.length, plan.kept.length, plan.admitted.length, plan.overflowBays, plan.retiring.length,
    (moversBy plan tags p).length⟩

/-- R79, steps 1 to 6: `q` is what a commit makes of `p`, with the tags it gives. -/
structure Part.Commits (plan : Plan) (tags : List Nat) (p q : Part) : Prop where
  node : ∀ b, q.fm.node? b = (p.fm.node? b).map fun r =>
    { r with nextTag := if plannedBy plan tags b = r.tag then none else some (plannedBy plan tags b), folded := plan.isFolded b }
  frame : q.fm = { p.fm with bays := q.fm.bays }
  writes : CommitWritesZones plan tags p q
  nextTag : TagsGiven (p.zt.zones.map Zone.tag) p.zt.nextTag tags q.zt.nextTag
  folds : ∀ z, q.zt.zone? 0 = some z → z.foldedBays = plan.overflowBays
  cbm : q.cbm = p.cbm
  afa : q.afa = p.afa
  cut : q.cut = p.cut
  monitor : q.pmon.monitor = .clean
  result : q.rsq.result = some (p.resultBy plan tags)
  requested : q.rsq.requested = p.rsq.requested
  movers : q.movingBays = moversBy plan tags p
  reports : p.zt.pins = [] → q.slu = p.slu.raiseAll (commitReports plan (p.resultBy plan tags)) p.fm.clock ∧ q.zt.pins = []
  table : ZoneTable (q.listing q.movingBays)

theorem Part.commit_fm (plan : Plan) (edges : List EdgeState) (p : Part) : (p.commit plan edges).fm = (p.zoned plan).fm := by
  rw [commit_eq, raiseAll_fm]
  rfl

theorem Part.commit_zt (plan : Plan) (edges : List EdgeState) (p : Part) : (p.commit plan edges).zt = (p.zoned plan).zt := by
  rw [commit_eq, raiseAll_zt]
  rfl

theorem Part.commit_cbm (plan : Plan) (edges : List EdgeState) (p : Part) : (p.commit plan edges).cbm = p.cbm := by
  rw [commit_eq, raiseAll_cbm]
  refine foldl_keeps retire (·.cbm) (fun p t => ?_) _ _
  unfold retire
  split
  · split
    · rw [freeZone, raiseAll_cbm]
      rfl
    · rfl
  · rfl

theorem Part.commit_afa (plan : Plan) (edges : List EdgeState) (p : Part) : (p.commit plan edges).afa = p.afa := by
  rw [commit_eq, raiseAll_afa]
  exact foldl_keeps retire (·.afa) (fun p t => p.retire_afa t) _ _

theorem Zt.allocateAll_pins (admitted : List (Component × Nat)) (t : Zt) : (t.allocateAll admitted).1.pins = t.pins := by
  induction admitted generalizing t with
  | nil => rfl
  | cons a rest ih => exact (ih (t.allocate a.2).1).trans rfl

/-- R82: where no pin can drop, a commit's reports are the first. -/
theorem Part.commit_slu {plan : Plan} {p : Part} (edges : List EdgeState) (noPins : p.zt.pins = []) :
    (p.commit plan edges).slu = p.slu.raiseAll (commitReports plan (p.solved plan)) p.fm.clock := by
  have before : ((p.mapZt fun _ => (p.withBorn plan).zt)).zt.pins = [] := by
    show ((p.zt.mapZones fun z => { z with parent := none }).allocateAll plan.admitted).1.pins = []
    rw [Zt.allocateAll_pins]
    exact noPins
  have zoned : (p.zoned plan).slu = p.slu := (retireAll_retired plan.retiring (p.withBorn plan)).slu before
  have clock : (p.zoned plan).fm.clock = p.fm.clock := by
    rw [zoned_fm]
    rfl
  rw [commit_eq, raiseAll_slu_eq, mapRsq_slu, mapPmon_slu, mapRsq_fm, mapPmon_fm, zoned, clock]

/-- R77: the moving bays of a commit. -/
theorem Part.Committed.movingBays {plan : Plan} {tags : List Nat} {p : Part} (c : p.Committed plan tags) :
    (p.zoned plan).movingBays = moversBy plan tags p := by
  unfold Part.movingBays moversBy
  rw [zoned_fm, FloorModel.nodes_mapNodes, List.filter_map, List.map_map]
  refine congrArg (List.map Prod.fst) (List.filter_congr fun x _ => ?_)
  simp only [Function.comp_apply, BayRec.planned, c.planned]
  by_cases own : plannedBy plan tags x.1 = x.2.tag <;> simp [own]

theorem Part.Committed.commits {tags : List Nat} {p : Part} {edges : List EdgeState} (table : ZoneTable p) (still : p.cut.list = [])
    (c : p.Committed (p.solveInput edges).plan tags) :
    Commits (p.solveInput edges).plan tags p (p.commit (p.solveInput edges).plan edges) := by
  have zoned := c.zoneTable table still
  have movers := c.movingBays
  generalize (p.solveInput edges).plan = plan at *
  obtain ⟨pmon, rsq⟩ := p.commit_monitor plan edges
  have fm := p.commit_fm plan edges
  have zt := p.commit_zt plan edges
  have moving : (p.commit plan edges).movingBays = (p.zoned plan).movingBays := by
    unfold Part.movingBays
    rw [fm]
  have clock : (p.zoned plan).fm.clock = p.fm.clock := by
    rw [zoned_fm]
    rfl
  have solved : p.solved plan = p.resultBy plan tags := by
    unfold Part.solved
    rw [clock, movers]
    rfl
  have slu := commit_slu (plan := plan) (p := p) edges
  rw [solved] at slu rsq
  have cbm := p.commit_cbm plan edges
  have afa := p.commit_afa plan edges
  have cut := p.commit_cut plan edges
  have writes := c.writes
  have frame := (p.zoned_blocks plan).2.2.2
  generalize p.commit plan edges = q at *
  exact {
    node := fun b => by
      rw [fm, zoned_node?]
      refine congrArg (fun g => Option.map g _) (funext fun r => ?_)
      unfold BayRec.planned
      dsimp only
      rw [c.planned]
    frame := by
      rw [fm]
      exact frame
    writes := by
      unfold CommitWritesZones at writes ⊢
      rw [fm, zt]
      exact writes
    nextTag := by
      rw [zt]
      exact c.order
    folds := fun z zone => by
      rw [zt, zoned_zone?, Option.map_eq_some_iff] at zone
      obtain ⟨y, held, rfl⟩ := zone
      exact if_pos (Zt.zone?_tag _ _ _ held)
    cbm := cbm
    afa := afa
    cut := cut
    monitor := by
      rw [pmon]
      rfl
    result := by rw [rsq]
    requested := by rw [rsq]
    movers := moving.trans movers
    reports := fun noPins => by
      refine ⟨slu noPins, ?_⟩
      obtain ⟨-, -, -, -, -, -, pins⟩ := writes
      rw [zt, pins, noPins]
      rfl
    table := by
      rw [moving]
      have same : ((p.zoned plan).listing (p.zoned plan).movingBays).Standing (q.listing (p.zoned plan).movingBays) :=
        .of_blocks (congrArg FloorModel.state fm) (congrArg FloorModel.bays fm) zt rfl
      exact same.zoneTable zoned }

/-! ### The hand-off by pacing -/

/-- What a hand-off leaves while no bay cuts over. -/
structure Part.Unmoved (p q : Part) : Prop where
  slu : q.slu = p.slu
  cbm : q.cbm = p.cbm
  fm : q.fm = p.fm
  zt : q.zt = p.zt
  afa : q.afa = p.afa

/-- R117: the moving bays that cut over at once under VACANT pacing, and the others. -/
def Part.silentMovers (p : Part) : List Nat := p.movingBays.filter fun b => (p.fm.node? b).any fun r => r.health == .silent
def Part.laterMovers (p : Part) : List Nat := p.movingBays.filter fun b => !(p.fm.node? b).any fun r => r.health == .silent

/-- R117: a VACANT cutover before the first bay cuts over. -/
def Part.vacantStarted (p : Part) : Part :=
  ((p.listing p.movingBays).mapRsq fun r => { r with seq := .cutting }).mapCut fun c => { c with deadline := .running c.limit }

theorem Part.silentMovers_nodup (p : Part) : p.silentMovers.Nodup := p.movingBays_nodup.filter _

theorem Part.filter_silentMovers (p : Part) : p.movingBays.filter (· ∉ p.silentMovers) = p.laterMovers := by
  refine List.filter_congr fun b mem => ?_
  unfold silentMovers
  simp [mem]

section
variable {q : Part}

theorem Part.handOff_of_still (pacing : Pacing) (still : q.movingBays = []) : q.handOff pacing = q.returnToIdle := by
  rw [handOff, still]
  rfl

theorem Part.returnToIdle_unmoved (q : Part) : q.Unmoved q.returnToIdle :=
  ⟨returnToIdle_slu _, returnToIdle_cbm _, returnToIdle_fm _, returnToIdle_zt _, returnToIdle_afa _⟩

/-- R63: after an accepted completion the monitor is CLEAN, so that a solve starts at once only where one was asked for. -/
theorem Part.returnToIdle_of_clean (clean : q.pmon.monitor = .clean) (unasked : q.rsq.requested = false) : q.returnToIdle.rsq.seq = .idle := by
  unfold returnToIdle decideAtIdle
  rw [if_neg]
  · rfl
  · rintro ⟨-, asked | ⟨settled, -⟩⟩
    · cases unasked.symm.trans asked
    · cases clean.symm.trans settled

variable (moves : q.movingBays ≠ [])
include moves

theorem Part.handOff_of_moving (pacing : Pacing) : q.handOff pacing = q.startCutover pacing q.movingBays :=
  if_neg fun none => moves (List.isEmpty_iff.1 none)

theorem Part.handOff_block : q.handOff .block = (q.listing q.movingBays).cutRemaining .paced := handOff_of_moving moves .block

theorem Part.handOff_vacant : q.handOff .vacant = (q.vacantStarted.cutBays q.silentMovers).completeIfEmpty .paced :=
  handOff_of_moving moves .vacant

/-- R117: the record of a STEP cutover at its start. -/
theorem Part.handOff_step : (q.handOff .step).rsq.seq = .cutting ∧ (q.handOff .step).cut = { q.cut with
    list := q.movingBays, run := some ⟨q.fm.clock, q.movingBays.length, 0⟩
    stepTimer := .running q.fm.clock q.cut.interval, deadline := .running q.cut.limit } ∧ q.Unmoved (q.handOff .step) := by
  rw [handOff_of_moving moves]
  exact ⟨rfl, rfl, rfl, rfl, rfl, rfl, rfl⟩

omit moves in
/-- R117, R125: the record of a VACANT cutover once its SILENT bays have cut over. -/
theorem Part.vacantStarted_cut : (q.vacantStarted.cutBays q.silentMovers).cut = { q.cut with
    list := q.laterMovers, run := some ⟨q.fm.clock, q.movingBays.length, q.silentMovers.length⟩, deadline := .running q.cut.limit } := by
  obtain ⟨run, shape⟩ := q.vacantStarted.cutBays_cut_shape q.silentMovers
  have counted := cutBays_run (p := q.vacantStarted) q.silentMovers_nodup fun b mem => mem_movingBays (List.mem_of_mem_filter mem)
  rw [shape] at counted ⊢
  dsimp only at counted
  rw [counted, ← filter_silentMovers]
  show { q.cut with
    list := q.movingBays.filter (· ∉ q.silentMovers)
    run := some ⟨q.fm.clock, q.movingBays.length, 0 + q.silentMovers.length⟩, deadline := .running q.cut.limit } = _
  rw [Nat.zero_add]

theorem Part.handOff_vacant_of_left (left : q.laterMovers ≠ []) : q.handOff .vacant = q.vacantStarted.cutBays q.silentMovers := by
  rw [handOff_vacant moves, completeIfEmpty, vacantStarted_cut]
  exact if_neg fun none => left (List.isEmpty_iff.1 none)

theorem Part.handOff_vacant_of_none (none : q.laterMovers = []) :
    q.handOff .vacant = (q.vacantStarted.cutBays q.silentMovers).completeCutover .paced := by
  rw [handOff_vacant moves, completeIfEmpty, vacantStarted_cut]
  exact if_pos (List.isEmpty_iff.2 none)

theorem Part.handOff_vacant_left (left : q.laterMovers ≠ []) : (q.handOff .vacant).rsq.seq = .cutting ∧ (q.handOff .vacant).cut = { q.cut with
    list := q.laterMovers, run := some ⟨q.fm.clock, q.movingBays.length, q.silentMovers.length⟩, deadline := .running q.cut.limit } := by
  rw [handOff_vacant_of_left moves left]
  exact ⟨congrArg Rsq.seq (cutBays_rsq ..), vacantStarted_cut⟩

theorem Part.handOff_vacant_over (none : q.laterMovers = []) :
    (q.handOff .vacant).rsq.seq ≠ .cutting ∧ (q.handOff .vacant).cut = q.cut.over := by
  rw [handOff_vacant_of_none moves none]
  refine ⟨completeCutover_seq .paced _, ?_⟩
  rw [completeCutover_cut, vacantStarted_cut, none]
  rfl

/-- R117: under VACANT pacing without a SILENT moving bay, no bay cuts over at the hand-off. -/
theorem Part.handOff_vacant_unmoved (none : q.silentMovers = []) : q.Unmoved (q.handOff .vacant) := by
  have left : q.laterMovers ≠ [] := by
    rw [← filter_silentMovers, none]
    simpa using moves
  rw [handOff_vacant_of_left moves left, none]
  exact ⟨rfl, rfl, rfl, rfl, rfl⟩

theorem Part.handOff_vacant_node? {b : Nat} {r : BayRec} (node : q.fm.node? b = some r) :
    ∃ r', (q.handOff .vacant).fm.node? b = some r' ∧ r'.nextTag = if b ∈ q.laterMovers then r.nextTag else none := by
  rw [handOff_vacant moves]
  cases next : r.nextTag with
  | none =>
    obtain ⟨x, done⟩ := completeIfEmpty_node? .paced (cutBays_node?_still (p := q.vacantStarted) q.silentMovers node next)
    exact ⟨_, done, by rw [ite_self]; exact next⟩
  | some n =>
    have moving : b ∈ q.movingBays := (q.movingBays_iff b).2 ⟨r, node, by rw [next]; rfl⟩
    by_cases silent : b ∈ q.silentMovers
    · obtain ⟨target, cut⟩ := cutBays_node? (p := q.vacantStarted) silent node next
      obtain ⟨x, done⟩ := completeIfEmpty_node? .paced cut
      refine ⟨_, done, (if_neg ?_).symm⟩
      rw [← filter_silentMovers, List.mem_filter]
      exact fun both => absurd silent (of_decide_eq_true both.2)
    · obtain ⟨x, done⟩ := completeIfEmpty_node? .paced ((cutBays_node?_other q.vacantStarted silent).trans node)
      refine ⟨_, done, ?_⟩
      rw [if_pos (by rw [← filter_silentMovers]; exact List.mem_filter.2 ⟨moving, decide_eq_true silent⟩)]
      exact next

theorem Part.handOff_block_cut : (q.handOff .block).rsq.seq ≠ .cutting ∧ (q.handOff .block).cut = q.cut.over := by
  rw [handOff_block moves]
  exact ⟨cutRemaining_seq .paced _, cutRemaining_cut .paced _⟩

/-- R114: a BLOCK-paced hand-off moves every moving bay. -/
theorem Part.handOff_block_node? {b : Nat} {r : BayRec} (node : q.fm.node? b = some r) :
    ∃ r', (q.handOff .block).fm.node? b = some r' ∧ r'.tag = r.nextTag.getD r.tag ∧ r'.nextTag = none
      ∧ r'.moves = if r.nextTag = none then r.moves else min 65535 (r.moves + 1) := by
  rw [handOff_block moves]
  cases next : r.nextTag with
  | none =>
    have unlisted : b ∉ q.movingBays := fun mem => by
      obtain ⟨r', node', moving⟩ := mem_movingBays mem
      rw [node] at node'
      cases node'
      rw [next] at moving
      cases moving
    obtain ⟨x, done⟩ := (q.listing q.movingBays).cutRemaining_node?_other .paced unlisted node
    exact ⟨_, done, rfl, next, rfl⟩
  | some n =>
    have listed : b ∈ q.movingBays := (q.movingBays_iff b).2 ⟨r, node, by rw [next]; rfl⟩
    obtain ⟨r', done, tag, still, count⟩ := (q.listing q.movingBays).cutRemaining_node? .paced listed node next
    exact ⟨r', done, tag, still, count⟩

/-- R126: the end of a BLOCK-paced cutover is reported before anything else of its hand-off. -/
theorem Part.handOff_block_slu (noPins : q.zt.pins = []) : ∃ rs, (q.handOff .block).slu = q.slu.raiseAll
    (.cutoverDone q.movingBays.length q.movingBays.length .paced 0 :: rs) q.fm.clock := by
  obtain ⟨rs, slu⟩ := (q.listing q.movingBays).cutRemaining_slu .paced (run := ⟨q.fm.clock, q.movingBays.length, 0⟩) rfl noPins
    q.movingBays_nodup fun b mem => mem_movingBays mem
  refine ⟨rs, ?_⟩
  rw [handOff_block moves, slu]
  dsimp only [listing, mapCut_fm, mapCut_cut, mapCut_slu]
  rw [Nat.zero_add, BitVec.sub_self]
  rfl

end

end Sys2Proof.Machine

/-!
The obligation on an accepted completion (R13, R47, R52, R77 to R83, R144): what it writes, and what each pacing makes of it.
-/
namespace Sys2Proof.Machine

/-! ### What every accepted completion writes -/

theorem Part.KeepsOutcome.handedOff (snap : Snapshot) (pacing : Pacing) (p : Part) : p.KeepsOutcome (p.handedOff snap pacing) := by
  unfold Part.handedOff
  split
  · exact (handOff .block p).trans (enterRunning _)
  · exact handOff pacing p

theorem Part.handedOff_raised (snap : Snapshot) (pacing : Pacing) (p : Part) :
    ∃ rs, (p.handedOff snap pacing).slu = p.slu.raiseAll rs p.fm.clock := by
  unfold handedOff
  split
  · obtain ⟨rs, slu⟩ := ((Keeps.handOff .block p).trans (Keeps.lit _)).raised
    have clock := ((Keeps.handOff .block p).trans (Keeps.lit _)).clock
    refine ⟨rs ++ [.surveyDone], ?_⟩
    rw [enterRunning_eq, raise_slu, mapFm_slu, slu, Slu.raiseAll_append]
    exact congrArg (Slu.raise _ _) clock
  · exact (Keeps.handOff pacing p).raised

theorem Part.handedOff_of_initial {snap : Snapshot} (initial : snap.initial = true) (pacing : Pacing) (p : Part) :
    p.handedOff snap pacing = (p.handOff .block).enterRunning := if_pos initial

theorem Part.handedOff_of_later {snap : Snapshot} (later : snap.initial = false) (pacing : Pacing) (p : Part) :
    p.handedOff snap pacing = p.handOff pacing := if_neg (by rw [later]; exact Bool.false_ne_true)

theorem Part.enterRunning_bay {p : Part} {b : Nat} {r : BayRec} (node : p.enterRunning.fm.node? b = some r) :
    r.level = r.target ∧ b ∈ p.enterRunning.cbm.drivePending := (p.lit_bay node).2

section
variable {p : Part} {snap : Snapshot} (solving : p.rsq.seq = .solving) (held : p.rsq.snapshot = some snap) (unchanged : p.pmon.changed = false)
include solving held unchanged

theorem Part.completeSolve_outcome : (∃ changed, p.completeSolve.pmon = { p.pmon.accept snap.edges with changed := changed })
    ∧ p.completeSolve.rsq.result = some (p.solved (p.solveInput snap.edges).plan) := by
  have kept := KeepsOutcome.handedOff snap (p.commit (p.solveInput snap.edges).plan snap.edges).cut.mode
    (p.commit (p.solveInput snap.edges).plan snap.edges)
  obtain ⟨pmon, rsq⟩ := p.commit_monitor (p.solveInput snap.edges).plan snap.edges
  rw [completeSolve_of_accepted solving held unchanged]
  generalize p.commit (p.solveInput snap.edges).plan snap.edges = q at *
  obtain ⟨⟨changed, after⟩, result, -⟩ := kept
  exact ⟨⟨changed, by rw [after, pmon]⟩, by rw [result, rsq]⟩

/-- R82: the reports of an accepted completion. -/
theorem Part.completeSolve_slu (noPins : p.zt.pins = []) : ∃ rs, p.completeSolve.slu =
    p.slu.raiseAll (commitReports (p.solveInput snap.edges).plan (p.solved (p.solveInput snap.edges).plan) ++ rs) p.fm.clock := by
  have slu := commit_slu (plan := (p.solveInput snap.edges).plan) snap.edges noPins
  have clock := (Keeps.commit (p.solveInput snap.edges).plan snap.edges p).clock
  rw [completeSolve_of_accepted solving held unchanged]
  generalize p.commit (p.solveInput snap.edges).plan snap.edges = q at *
  obtain ⟨rs, raised⟩ := q.handedOff_raised snap q.cut.mode
  refine ⟨rs, ?_⟩
  rw [raised, slu, clock, Slu.raiseAll_append]

theorem Part.completeSolve_floor :
    (snap.initial = true → p.completeSolve.fm.state = .running ∧ ∀ b r, p.completeSolve.fm.node? b = some r → r.level = r.target
        ∧ b ∈ p.completeSolve.cbm.drivePending)
      ∧ (snap.initial = false → p.completeSolve.fm.state = p.fm.state) := by
  have state := (Keeps.commit (p.solveInput snap.edges).plan snap.edges p).state
  rw [completeSolve_of_accepted solving held unchanged]
  generalize p.commit (p.solveInput snap.edges).plan snap.edges = q at *
  constructor
  · intro initial
    rw [handedOff_of_initial initial]
    exact ⟨rfl, fun b r node => enterRunning_bay node⟩
  · intro later
    rw [handedOff_of_later later]
    exact (Keeps.handOff q.cut.mode q).state.trans state

end

theorem Part.solved_time (plan : Plan) (p : Part) : (p.solved plan).time = p.fm.clock := by
  show (p.zoned plan).fm.clock = p.fm.clock
  rw [zoned_fm]
  rfl

/-- R52, R79, R82, R83: the first part of the obligation. -/
theorem acceptedSolveWrites (snap : Snapshot) (s : State) (solving : s.part.rsq.seq = .solving) (held : s.part.rsq.snapshot = some snap)
    (unchanged : s.part.pmon.changed = false) :
    ∃ t result, exec .solveCompletion s = .next t ∧ t.pending = s.pending
      ∧ t.part.pmon.baseline = some snap.edges ∧ t.part.pmon.netChange = [] ∧ t.part.pmon.quiet = .stopped
      ∧ t.part.pmon.owed = false ∧ t.part.pmon.monitor = .clean ∧ t.part.pmon.edges = s.part.pmon.edges
      ∧ t.part.rsq.result = some result ∧ result.time = s.part.fm.clock
      ∧ (s.part.zt.pins = [] → Reportable s.part.slu 2 →
          t.part.slu.queue[s.part.slu.queue.length]? = some ⟨.solveDone result, s.part.fm.clock⟩)
      ∧ (snap.initial = true → t.part.fm.state = .running ∧ ∀ b r, t.part.fm.node? b = some r → r.level = r.target
          ∧ b ∈ t.part.cbm.drivePending)
      ∧ (snap.initial = false → t.part.fm.state = s.part.fm.state) := by
  obtain ⟨⟨changed, pmon⟩, result⟩ := Part.completeSolve_outcome solving held unchanged
  obtain ⟨initial, later⟩ := Part.completeSolve_floor solving held unchanged
  refine ⟨{ s with part := s.part.completeSolve.choose }, _, rfl, rfl, ?_, ?_, ?_, ?_, ?_, ?_, result, Part.solved_time .., ?reported,
    initial, later⟩
  case reported =>
    rintro noPins ⟨on, room, busy⟩
    obtain ⟨rs, slu⟩ := Part.completeSolve_slu solving held unchanged noPins
    show s.part.completeSolve.slu.choose.queue[_]? = _
    rw [slu]
    exact Slu.raiseAll_choose_first _ _ on room busy
  all_goals
    dsimp only [Part.choose_pmon]
    rw [pmon]
    rfl

end Sys2Proof.Machine

/-!
The accepted completion from a zone table that meets its laws (R80, R81, R86, R87, R117, R126, R144), and the obligation.
-/
namespace Sys2Proof.Machine

theorem CommitWritesZones.congr {plan : Plan} {tags : List Nat} {p q r : Part} (h : CommitWritesZones plan tags p q) (fm : r.fm = q.fm)
    (zt : r.zt = q.zt) : CommitWritesZones plan tags p r := by
  unfold CommitWritesZones at h ⊢
  rw [fm, zt]
  exact h

/-! ### The hand-off after a commit -/

section
variable {plan : Plan} {tags : List Nat} {p q : Part} (k : Part.Commits plan tags p q)
include k

theorem Part.Commits.clock : q.fm.clock = p.fm.clock := by rw [k.frame]

theorem Part.Commits.health (b : Nat) : ((q.fm.node? b).any fun r => r.health == .silent) = (p.fm.node? b).any fun r => r.health == .silent := by
  rw [k.node]
  cases p.fm.node? b <;> rfl

theorem Part.Commits.silentMovers :
    q.silentMovers = (moversBy plan tags p).filter fun b => (p.fm.node? b).any fun r => r.health == .silent := by
  unfold Part.silentMovers
  rw [k.movers]
  exact List.filter_congr fun b _ => k.health b

theorem Part.Commits.laterMovers :
    q.laterMovers = (moversBy plan tags p).filter fun b => !(p.fm.node? b).any fun r => r.health == .silent := by
  unfold Part.laterMovers
  rw [k.movers]
  exact List.filter_congr fun b _ => congrArg _ (k.health b)

/-- R81, R117: when no bay cuts over at the hand-off. -/
theorem Part.Commits.unmoved {mode : Pacing} (still : moversBy plan tags p = [] ∨ mode = .step ∨ (mode = .vacant
      ∧ ((moversBy plan tags p).filter fun b => (p.fm.node? b).any fun r => r.health == .silent) = [])) :
    q.Unmoved (q.handOff mode) := by
  rw [← k.silentMovers, ← k.movers] at still
  by_cases moves : q.movingBays = []
  · rw [handOff_of_still mode moves]
    exact q.returnToIdle_unmoved
  · rcases still with none | rfl | ⟨rfl, silent⟩
    · exact absurd none moves
    · exact (handOff_step moves).2.2
    · exact handOff_vacant_unmoved moves silent

/-- R79, R82: what stands once the event is over. -/
theorem Part.Commits.stands {r : Part} (same : q.Unmoved r) : CommitWritesZones plan tags p r.choose
    ∧ r.choose.fm = { p.fm with bays := r.choose.fm.bays } ∧ r.choose.cbm = p.cbm ∧ r.choose.afa = p.afa
    ∧ (p.zt.pins = [] → Queued (commitReports plan (p.resultBy plan tags)) p r.choose) := by
  refine ⟨k.writes.congr same.fm same.zt, ?_, same.cbm.trans k.cbm, same.afa.trans k.afa, fun noPins => Queued.of_raised ?_⟩
  · rw [choose_fm, same.fm]
    exact k.frame
  · rw [choose_slu, same.slu, (k.reports noPins).1]

theorem Part.Commits.handOff_still (mode : Pacing) (still : moversBy plan tags p = []) :
    (q.handOff mode).cut = p.cut ∧ (p.rsq.requested = false → (q.handOff mode).rsq.seq = .idle) := by
  rw [handOff_of_still mode (k.movers.trans still)]
  exact ⟨(returnToIdle_cut _).trans k.cut, fun unasked => returnToIdle_of_clean k.monitor (k.requested.trans unasked)⟩

section
variable (moves : moversBy plan tags p ≠ [])
include moves

theorem Part.Commits.moving : q.movingBays ≠ [] := by rwa [k.movers]

theorem Part.Commits.handOff_step : (q.handOff .step).rsq.seq = .cutting ∧ (q.handOff .step).cut = { p.cut with
    list := moversBy plan tags p, run := some ⟨p.fm.clock, (moversBy plan tags p).length, 0⟩
    stepTimer := .running p.fm.clock p.cut.interval, deadline := .running p.cut.limit } := by
  obtain ⟨seq, cut, -⟩ := Part.handOff_step (k.moving moves)
  rw [k.cut, k.movers, k.clock] at cut
  exact ⟨seq, cut⟩

theorem Part.Commits.handOff_vacant_left (left : q.laterMovers ≠ []) :
    (q.handOff .vacant).rsq.seq = .cutting ∧ (q.handOff .vacant).cut = { p.cut with
      list := q.laterMovers, run := some ⟨p.fm.clock, (moversBy plan tags p).length, q.silentMovers.length⟩
      deadline := .running p.cut.limit } := by
  obtain ⟨seq, cut⟩ := Part.handOff_vacant_left (k.moving moves) left
  rw [k.cut, k.movers, k.clock] at cut
  exact ⟨seq, cut⟩

theorem Part.Commits.handOff_vacant_over (none : q.laterMovers = []) :
    (q.handOff .vacant).rsq.seq ≠ .cutting ∧ (q.handOff .vacant).cut = p.cut.over := by
  obtain ⟨seq, cut⟩ := Part.handOff_vacant_over (k.moving moves) none
  rw [k.cut] at cut
  exact ⟨seq, cut⟩

theorem Part.Commits.handOff_vacant_node? {b : Nat} {r : BayRec} (node : p.fm.node? b = some r) :
    ∃ r', (q.handOff .vacant).fm.node? b = some r' ∧ r'.nextTag = if b ∈ q.laterMovers then some (plannedBy plan tags b) else none := by
  have committed := k.node b
  rw [node, Option.map_some] at committed
  obtain ⟨r', node', next⟩ := Part.handOff_vacant_node? (k.moving moves) committed
  refine ⟨r', node', next.trans ?_⟩
  by_cases later : b ∈ q.laterMovers
  · obtain ⟨y, held, moving⟩ := mem_movingBays (List.mem_of_mem_filter later)
    rw [committed] at held
    cases held
    rw [if_pos later, if_pos later]
    dsimp only at moving ⊢
    split at moving
    · cases moving
    · next differs => exact if_neg differs
  · rw [if_neg later, if_neg later]

theorem Part.Commits.handOff_block :
    (q.handOff .block).rsq.seq ≠ .cutting ∧ (q.handOff .block).cut = p.cut.over
      ∧ (∀ b r, p.fm.node? b = some r → ∃ r', (q.handOff .block).fm.node? b = some r' ∧ r'.tag = plannedBy plan tags b
          ∧ r'.nextTag = none ∧ r'.moves = if plannedBy plan tags b = r.tag then r.moves else min 65535 (r.moves + 1))
      ∧ (p.zt.pins = [] → ∃ rs, (q.handOff .block).slu = p.slu.raiseAll ((commitReports plan (p.resultBy plan tags)
          ++ [.cutoverDone (moversBy plan tags p).length (moversBy plan tags p).length .paced 0]) ++ rs) p.fm.clock) := by
  obtain ⟨seq, cut⟩ := Part.handOff_block_cut (k.moving moves)
  rw [k.cut] at cut
  refine ⟨seq, cut, fun b r node => ?_, fun noPins => ?_⟩
  · have committed := k.node b
    rw [node, Option.map_some] at committed
    obtain ⟨r', node', tag, next, count⟩ := Part.handOff_block_node? (k.moving moves) committed
    refine ⟨r', node', ?_⟩
    dsimp only at tag count
    by_cases own : plannedBy plan tags b = r.tag
    · rw [if_pos own] at tag count
      rw [if_pos own]
      exact ⟨tag.trans own.symm, next, count⟩
    · rw [if_neg own] at tag count
      rw [if_neg own]
      exact ⟨tag, next, count⟩
  · obtain ⟨slu, pins⟩ := k.reports noPins
    obtain ⟨rs, raised⟩ := Part.handOff_block_slu (k.moving moves) pins
    refine ⟨rs, ?_⟩
    rw [raised, slu, k.movers, k.clock, List.append_assoc, Slu.raiseAll_append]
    rfl

end

/-- R81: the zone table after a BLOCK-paced hand-off. -/
theorem Part.Commits.handOff_block_table (still : p.cut.list = []) : ZoneTable (q.handOff .block) :=
  zoneTable_tableKept.handOff .block k.table fun none => k.table.of_listing (by rw [none, k.cut, still])

end

/-! ### The entering of RUNNING -/

section
variable (p : Part)

theorem Part.enterRunning_moves {b : Nat} {r : BayRec} (node : p.fm.node? b = some r) :
    ∃ r', p.enterRunning.fm.node? b = some r' ∧ r'.tag = r.tag ∧ r'.nextTag = r.nextTag ∧ r'.moves = r.moves := by
  obtain ⟨q, lit⟩ := p.lit_node? node
  exact ⟨_, lit, rfl, rfl, rfl⟩

theorem Part.enterRunning_cut : p.enterRunning.cut = p.cut := p.lit_cut

theorem Part.enterRunning_slu : p.enterRunning.slu = p.lit.slu.raise .surveyDone p.fm.clock := by
  rw [enterRunning_eq, raise_slu, mapFm_slu, ← (Keeps.lit p).clock]
  rfl

theorem Part.enterRunning_raised : ∃ rs, p.enterRunning.slu = p.slu.raiseAll rs p.fm.clock := by
  obtain ⟨rs, slu⟩ := (Keeps.lit p).raised
  refine ⟨rs ++ [.surveyDone], ?_⟩
  rw [enterRunning_slu, slu, Slu.raiseAll_append]
  rfl

/-- R13, step 5. -/
theorem Part.enterRunning_surveyDone (busy : p.slu.tx ≠ .idle) (on : Enabled p.slu 1) :
    p.enterRunning.choose.slu.queue.getLast? = some ⟨.surveyDone, p.fm.clock⟩
      ∨ (16 ≤ p.enterRunning.choose.slu.queue.length ∧ p.enterRunning.choose.slu.lost = true) := by
  obtain ⟨rs, slu⟩ := (Keeps.lit p).raised
  have tx : p.lit.slu.tx = p.slu.tx := by rw [slu, Slu.raiseAll_eq]
  have mask : p.lit.slu.mask = p.slu.mask := by rw [slu, Slu.raiseAll_eq]
  rw [choose_slu, enterRunning_slu]
  refine Slu.raise_choose_last p.fm.clock (by rwa [tx]) ?_
  unfold Enabled at on ⊢
  rw [mask]
  exact on

end

theorem Zone.target_vacancyStarted (now : Clock) (z : Zone) : (z.vacancyStarted now).target = z.target := by
  unfold vacancyStarted
  split <;> rfl

theorem Zone.target_of_lighting {y z : Zone} (same : y.lighting = z.lighting) : y.target = z.target :=
  show y.lighting.target = z.lighting.target by rw [same]

/-- R144: every bay's target is that of its zone. -/
theorem ZoneTable.lit_target {p : Part} (table : ZoneTable p) {b : Nat} {r : BayRec} (node : p.lit.fm.node? b = some r) :
    ∃ z, p.lit.zt.zone? r.tag = some z ∧ r.target = some z.target := by
  obtain ⟨⟨x, held, tag, target⟩, -⟩ := p.lit_bay node
  obtain ⟨y, zone, -⟩ := table.housed held
  have lit := p.lit_zone x.tag
  rw [zone, Option.map_some] at lit
  obtain ⟨z, zone', same⟩ := Option.map_eq_some_iff.1 lit
  refine ⟨z, tag ▸ zone', target.trans ?_⟩
  rw [Zone.target_of_lighting same, Zone.target_vacancyStarted]
  unfold Zt.targetFor
  rw [zone]

/-- R144, step 3: the timer of every LIVE zone runs from the beginning of its delay. -/
theorem ZoneTable.lit_vacancy {p : Part} (table : ZoneTable p) {z : Zone} (mem : z ∈ p.lit.zt.zones) (live : z.life = .live) :
    z.vacancy = .running p.fm.clock z.settings.vacancyDelay := by
  have zone := ((Part.Standing.lit p).zoneTable table).distinct.zone?_eq mem
  have lit := p.lit_zone z.tag
  rw [show p.lit.zt.zone? z.tag = some z from zone, Option.map_some] at lit
  obtain ⟨y, -, same⟩ := Option.map_eq_some_iff.1 lit.symm
  have life : y.life = .live := by
    have kept : (y.vacancyStarted p.fm.clock).life = y.life := by
      unfold Zone.vacancyStarted
      split <;> rfl
    rw [← kept]
    exact (congrArg Zone.life same).trans live
  rw [Zone.vacancyStarted, if_pos life] at same
  have vacancy := congrArg Zone.vacancy same
  have settings := congrArg Zone.settings same
  dsimp only [Zone.lighting] at vacancy settings
  rw [← vacancy, settings]

/-! ### The obligation -/

/-- R13, R144: the initial solve's completion lights the floor. -/
theorem Part.Commits.initial {plan : Plan} {tags : List Nat} {p q : Part} (k : Part.Commits plan tags p q) (still : p.cut.list = [])
    (keeps : p.Keeps q) {t : Part} (eq : t = (q.handOff .block).enterRunning.choose) :
    (∀ b r, t.fm.node? b = some r → ∃ z, t.zt.zone? r.tag = some z ∧ r.target = some
        (if z.manualOff then 0 else if z.occupancy = .occupied then z.settings.occupiedLevel else z.settings.standbyLevel))
      ∧ (∀ z ∈ t.zt.zones, z.life = .live → z.vacancy = .running p.fm.clock z.settings.vacancyDelay)
      ∧ (∀ f, p.afa.supply = some f → t.afa = { p.afa with timer := .running p.fm.clock p.afa.ai })
      ∧ (p.slu.tx ≠ .idle → Enabled p.slu 1 → t.slu.queue.getLast? = some ⟨.surveyDone, p.fm.clock⟩
          ∨ (16 ≤ t.slu.queue.length ∧ t.slu.lost = true)) := by
  subst eq
  have table := k.handOff_block_table still
  have keeps := keeps.trans (.handOff .block q)
  generalize q.handOff .block = x at *
  refine ⟨fun b r node => ?_, fun z mem live => ?_, fun f supply => ?_, fun busy on => ?_⟩
  · obtain ⟨z, zone, target⟩ := table.lit_target node
    exact ⟨z, zone, by rw [target, Zone.target_eq]⟩
  · rw [← keeps.clock]
    exact table.lit_vacancy mem live
  · have supply' : x.afa.supply = some f := by
      rw [keeps.afa]
      exact supply
    refine (x.lit_afa supply').trans ?_
    rw [keeps.clock, keeps.afa]
  · obtain ⟨rs, slu⟩ := keeps.raised
    rw [← keeps.clock]
    refine x.enterRunning_surveyDone ?_ ?_
    · rwa [slu, Slu.raiseAll_eq]
    · unfold Enabled at on ⊢
      rwa [slu, Slu.raiseAll_eq]

/-- R114, R126: every moving bay has moved where the hand-off is BLOCK-paced, and the end is reported after the solve. -/
theorem Part.Commits.block {plan : Plan} {tags : List Nat} {p q : Part} (k : Part.Commits plan tags p q) (moves : moversBy plan tags p ≠ [])
    {snap : Snapshot} (which : snap.initial = true ∨ q.cut.mode = .block) {t : Part} (eq : t = (q.handedOff snap q.cut.mode).choose) :
    t.rsq.seq ≠ .cutting ∧ t.cut = p.cut.over
      ∧ (∀ b r, p.fm.node? b = some r → ∃ r', t.fm.node? b = some r' ∧ r'.tag = plannedBy plan tags b
          ∧ r'.nextTag = none ∧ r'.moves = if plannedBy plan tags b = r.tag then r.moves else min 65535 (r.moves + 1))
      ∧ (p.zt.pins = [] → QueuedFirst (commitReports plan (p.resultBy plan tags)
          ++ [.cutoverDone (moversBy plan tags p).length (moversBy plan tags p).length .paced 0]) p t) := by
  subst eq
  obtain ⟨seq, cut, nodes, slu⟩ := k.handOff_block moves
  have clock := (Keeps.handOff .block q).clock.trans k.clock
  cases initial : snap.initial with
  | false =>
    rw [handedOff_of_later initial, which.resolve_left (by rw [initial]; exact Bool.false_ne_true)]
    refine ⟨seq, cut, nodes, fun noPins => ?_⟩
    obtain ⟨rs, raised⟩ := slu noPins
    exact QueuedFirst.of_raised (more := rs) (congrArg Slu.choose raised)
  | true =>
    rw [handedOff_of_initial initial]
    generalize q.handOff .block = x at *
    refine ⟨?_, x.enterRunning_cut.trans cut, fun b r node => ?_, fun noPins => ?_⟩
    · rw [choose_rsq, x.enterRunning_monitor.2]
      exact seq
    · obtain ⟨y, node', tag, next, count⟩ := nodes b r node
      obtain ⟨r', node'', tag', next', count'⟩ := x.enterRunning_moves node'
      exact ⟨r', node'', tag'.trans tag, next'.trans next, count'.trans count⟩
    · obtain ⟨rs, raised⟩ := slu noPins
      obtain ⟨more, entered⟩ := x.enterRunning_raised
      refine QueuedFirst.of_raised (more := rs ++ more) ?_
      rw [choose_slu, entered, raised, clock, ← Slu.raiseAll_append, List.append_assoc]

/-- Settles O46: the commit writes the zones by its plan, and the hand-off of each pacing follows from what it has written. -/
theorem acceptedSolveCommits : Obligations.AcceptedSolveCommits := by
  unfold Obligations.AcceptedSolveCommits
  refine ⟨acceptedSolveWrites, fun snap s solving held unchanged valid laws => ?_⟩
  obtain ⟨table, sequenced⟩ := (zoneLaws_iff s.part).1 laws
  have still : s.part.cut.list = [] := sequenced.1 (by rw [solving]; exact nofun)
  obtain ⟨tags, c⟩ := Part.committed ((zonesValid_iff s.part).1 valid).1 table still snap.edges
  have k := c.commits table still
  have keeps := Part.Keeps.commit (s.part.solveInput snap.edges).plan snap.edges s.part
  have accepted := Part.completeSolve_of_accepted solving held unchanged
  have leads : ∀ b r, s.part.fm.node? b = some r → ∃ r', s.part.completeSolve.fm.node? b = some r'
      ∧ r'.folded = (s.part.solveInput snap.edges).plan.isFolded b
      ∧ r'.nextTag.getD r'.tag = plannedBy (s.part.solveInput snap.edges).plan tags b := fun b r node => by
    rw [← c.planned]
    exact Part.completeSolve_leads solving held unchanged node
  have runs : exec .solveCompletion s = .next { s with part := s.part.completeSolve.choose } := rfl
  rw [accepted] at leads runs
  generalize s.part.commit (s.part.solveInput snap.edges).plan snap.edges = q at *
  have outcome := Part.KeepsOutcome.handedOff snap q.cut.mode q
  refine ⟨_, tags, runs, c.count, ?order, outcome.result.trans k.result, leads, fun z zone => ?folded, fun later unmoved => ?written,
    fun later none => ?still, fun later moves step => ?step, fun later moves vacant => ?vacant, fun moves which => ?block, fun first => ?initial⟩
  case order =>
    dsimp only [Part.choose_zt]
    rw [outcome.folds.nextTag]
    exact k.nextTag
  case folded =>
    obtain ⟨y, zone', same⟩ := outcome.folds.folds 0 z zone
    exact same.trans (k.folds y zone')
  case written =>
    rw [Part.handedOff_of_later later, k.cut]
    exact k.stands (k.unmoved unmoved)
  case still =>
    rw [Part.handedOff_of_later later]
    exact k.handOff_still _ none
  case step =>
    rw [Part.handedOff_of_later later, k.cut, step]
    exact k.handOff_step moves
  case vacant =>
    rw [Part.handedOff_of_later later, k.cut, vacant]
    have silent := k.silentMovers
    have answering := k.laterMovers
    refine ⟨fun left => ?_, fun none => k.handOff_vacant_over moves (answering.trans none), fun b r node => ?_⟩
    · have started := k.handOff_vacant_left moves (by rwa [answering])
      rw [answering, silent] at started
      exact started
    · have moved := k.handOff_vacant_node? moves node
      rw [answering] at moved
      exact moved
  case block => exact k.block moves (which.imp_right fun mode => by rw [k.cut]; exact mode) rfl
  case initial => exact k.initial still keeps (by rw [Part.handedOff_of_initial first])

end Sys2Proof.Machine
